-- ==== Sys2Proof/Word.lean ====
section
/-! DEFINITION. The word types of the hash-tree keystream engine. -/

namespace Sys2Proof

/-- A byte of a channel or of a hash string (00_scope.md R9). -/
abbrev Byte := BitVec 8

/-- The value of one 32-bit register of the window (10_state.md R27). -/
abbrev Word := BitVec 32

/-- A 32-byte string, byte `j` at index `j` (00_scope.md R9). -/
abbrev B32 := Vector Byte 32

/-- `0^32`, the string of 32 zero bytes (00_scope.md R9). -/
def zero32 : B32 := Vector.replicate 32 0#8

/-- The node chain: 32 slots of 32 bytes, whatever the configured depth (10_state.md R22, R43). -/
abbrev Nodes := Vector B32 32

end Sys2Proof
end

