-- ==== Sys2Proof/Config.lean ====
section
/-! DEFINITION. The implementation parameters of 00_scope.md R6 and the free value of 70_reset_and_hazards.md R225.
What the spec leaves OPEN is an opaque constant: nothing can be proved of its value. -/

namespace Sys2Proof

/-- `HASH`, a total function of 32-byte strings that no source names (00_scope.md R6, decision D2). Log 1. -/
opaque Config.hash : B32 → B32

/-- `ENGINE_BASE / 4096`: the spec says only that the base is a multiple of 4096 (00_scope.md R6). Log 2. -/
opaque Config.enginePage : Nat

/-- `ENGINE_BASE` (00_scope.md R6, decision D3). -/
def Config.engineBase : Nat := 4096 * Config.enginePage

/-- `FIFO_DEPTH - 1`: the spec says only that the capacity is at least 1 (00_scope.md R6). Log 3. -/
opaque Config.fifoExtra : Nat

/-- `FIFO_DEPTH`, the capacity in bytes of each byte channel (00_scope.md R6, decision D15). -/
def Config.fifoDepth : Nat := Config.fifoExtra + 1

/-- `CHUNK`, the chunk size of the host cipher loop (00_scope.md R6, decision D16). Log 4. -/
def Config.chunk : Nat := 131072

/-- The free draw number `n`: what a register read while busy returns (70_reset_and_hazards.md R225). Log 9. -/
opaque Config.busyRead : Nat → Word

end Sys2Proof
end

