-- ==== Sys2Proof/Machine/Chain.lean ====
section
/-! DEFINITION. The hash chain and path arithmetic as functions of plain values: 00_scope.md R9, R11, 10_state.md R24,
40_keystream.md R100 to R102, R107. They take the hash function as an argument; the machine gives them
`Config.hash`. -/

namespace Sys2Proof.Machine

/-- `rev(x)`: byte order reversal, not bit negation (00_scope.md R9). -/
def rev (x : B32) : B32 := Vector.ofFn fun j => x[31 - j.val]

/-- The input of `H` for a child of `prev`: unchanged for the left child (bit 0), byte-reversed for the right one
(bit 1) (40_keystream.md R100). -/
def childInput (b : Bool) (prev : B32) : B32 := if b then rev prev else prev

/-- The decision bit of level `i`: `bit(path, depth - 1 - i)` (40_keystream.md R100). -/
def decisionBit (path : Word) (depth i : Nat) : Bool := path.getLsbD (depth - 1 - i)

/-- `chainval(s, p, d, i)` (40_keystream.md R100). -/
def chainval (H : B32 → B32) (seed : B32) (path : Word) (depth : Nat) : Nat → B32
  | 0 => H (childInput (decisionBit path depth 0) seed)
  | i + 1 => H (childInput (decisionBit path depth (i + 1)) (chainval H seed path depth i))

/-- `leafval(s, p, d)` (40_keystream.md R100). -/
def leafval (H : B32 → B32) (seed : B32) (path : Word) (depth : Nat) : B32 :=
  chainval H seed path depth (depth - 1)

/-- The value below level `i`: the seed for level 0, else `nodes[i - 1]` (40_keystream.md R101). -/
def prevValue (seed : B32) (nodes : Nodes) (i : Nat) : B32 :=
  if i = 0 then seed else nodes[i - 1]?.getD zero32

/-- `k` iterations of the loop of `compute`, from level `i` up; each applies `H` once (40_keystream.md R101). -/
def computeLevels (H : B32 → B32) (seed : B32) (path : Word) (depth : Nat) : Nat → Nat → Nodes → Nodes
  | 0, _, nodes => nodes
  | k + 1, i, nodes =>
    computeLevels H seed path depth k (i + 1)
      (nodes.setIfInBounds i (H (childInput (decisionBit path depth i) (prevValue seed nodes i))))

/-- The number of one bits of `x` in a row from bit `k - 1` downward. -/
def leadingOnes (x : Word) : Nat → Nat
  | 0 => 0
  | k + 1 => if x.getLsbD k then leadingOnes x k + 1 else 0

/-- `lo32(x)` (00_scope.md R11). -/
def lo32 (x : Word) : Nat := leadingOnes x 32

/-- The divergence level `n = max(0, lo32(agree) - (32 - depth))`; subtraction of Nat is the clamp at 0
(40_keystream.md R102, 90_conflicts.md C5). -/
def divergence (old new : Word) (depth : Nat) : Nat := lo32 (~~~(old ^^^ new)) - (32 - depth)

/-- `mask = 2^depth - 1` as a 32-bit value (10_state.md R24). -/
def maskOf (depth : Nat) : Word := BitVec.ofNat 32 (2 ^ depth - 1)

/-- The number of one bits of `x` in a row from bit `32 - k` upward. -/
def trailingOnesFrom (x : Word) : Nat → Nat
  | 0 => 0
  | k + 1 => if x.getLsbD (31 - k) then trailingOnesFrom x k + 1 else 0

/-- The number of trailing one bits of a path (40_keystream.md R115). -/
def trailingOnes (x : Word) : Nat := trailingOnesFrom x 32

/-- `ks(j)`: the keystream byte number `j` of an instance that starts at path `p0` (40_keystream.md R107). -/
def keystreamByte (H : B32 → B32) (seed : B32) (p0 : Word) (depth j : Nat) : Byte :=
  (leafval H seed (p0 + BitVec.ofNat 32 (j / 32)) depth)[j % 32]'(Nat.mod_lt j (by decide))

end Sys2Proof.Machine
end

