-- ==== Sys2Proof/Syntax.lean ====
section
/-! DEFINITION. The seven commands of spec/opcode_table.json (30_encoding.md R82). -/

namespace Sys2Proof

/-- A command with its operand from the command word (30_encoding.md R81). The path of CREATE and GOTO and the
seed of CREATE are not in the word: they are latched at the CMD write (10_state.md R41). -/
inductive Instr where
  /-- `CREATE d`: F6 = depth (40_keystream.md R108). -/
  | create (depth : Nat)
  /-- `GOTO`: the path is the latched ARG_PATH (40_keystream.md R110). -/
  | goto
  /-- `COMPUTE f`: F6 = the level to start from (40_keystream.md R109). -/
  | compute (fromLevel : Nat)
  /-- `READ n`: LEN = the buffer length (40_keystream.md R111). -/
  | read (len : Nat)
  /-- `READ_EXACT n`: LEN = the exact length (40_keystream.md R112). -/
  | readExact (len : Nat)
  /-- `XOR n`: LEN = the chunk length (41_cipher.md R150). -/
  | xor (len : Nat)
  /-- `RESET` (42_control.md R170). -/
  | reset
deriving DecidableEq, Repr

end Sys2Proof
end

