-- ==== Sys2Proof/WellFormed.lean ====
section
/-! DEFINITION. Which commands can be encoded: the operand ranges an assembler checks (30_encoding.md R86). -/

namespace Sys2Proof

/-- `CREATE d` and `COMPUTE f` require an operand of 0..63, `READ n`, `READ_EXACT n` and `XOR n` one of
0..16,777,215; "an assembler refuses other values (they cannot be encoded)" (30_encoding.md R86). -/
def Instr.wellFormed : Instr → Bool
  | .create d => d < 64
  | .goto => true
  | .compute f => f < 64
  | .read n => n < 16777216
  | .readExact n => n < 16777216
  | .xor n => n < 16777216
  | .reset => true

/-- `wellFormed` as a proposition. -/
abbrev Instr.WellFormed (i : Instr) : Prop := i.wellFormed = true

end Sys2Proof
end

