-- ==== Sys2Proof/Decode.lean ====
section
/-! DEFINITION. The decoder of command words (30_encoding.md R83, R84), total, rejecting by name, and the encoder
(30_encoding.md R80, R86). -/

namespace Sys2Proof

/-- Why a word decodes to ILLEGAL (30_encoding.md R84). -/
inductive Illegal where
  /-- opcode 0x0 or 0x8..0xF -/
  | opcode
  /-- bits 7:4 are not 0 -/
  | reserved7to4
  /-- bits 31:14 of a format F6 word are not 0 -/
  | reserved31to14
  /-- bits 31:4 of a format Z word are not 0 -/
  | reserved31to4
deriving DecidableEq, Repr

/-- The field F6 of a word, bits 13:8 (30_encoding.md R80, R81). -/
def fieldF6 (v : Word) : Nat := (v.extractLsb' 8 6).toNat

/-- The field LEN of a word, bits 31:8 (30_encoding.md R80, R81). -/
def fieldLen (v : Word) : Nat := (v.extractLsb' 8 24).toNat

/-- A format Z word whose low byte is already checked: bits 31:4 must be 0. -/
def decodeZ (v : Word) (i : Instr) : Except Illegal Instr :=
  if v.extractLsb' 4 28 = 0#28 then .ok i else .error .reserved31to4

/-- A format F6 word whose low byte is already checked: bits 31:14 must be 0. -/
def decodeF6 (v : Word) (mk : Nat → Instr) : Except Illegal Instr :=
  if v.extractLsb' 14 18 = 0#18 then .ok (mk (fieldF6 v)) else .error .reserved31to14

/-- `decode` of 30_encoding.md R83. -/
def decode (v : Word) : Except Illegal Instr :=
  if v.extractLsb' 4 4 ≠ 0#4 then .error .reserved7to4
  else if v.extractLsb' 0 4 = 0x1#4 then decodeF6 v .create
  else if v.extractLsb' 0 4 = 0x2#4 then decodeZ v .goto
  else if v.extractLsb' 0 4 = 0x3#4 then decodeF6 v .compute
  else if v.extractLsb' 0 4 = 0x4#4 then .ok (.read (fieldLen v))
  else if v.extractLsb' 0 4 = 0x5#4 then .ok (.readExact (fieldLen v))
  else if v.extractLsb' 0 4 = 0x6#4 then .ok (.xor (fieldLen v))
  else if v.extractLsb' 0 4 = 0x7#4 then decodeZ v .reset
  else .error .opcode

/-- The opcode, bits 3:0 (30_encoding.md R82). -/
def opcodeOf : Instr → Nat
  | .create _ => 0x1
  | .goto => 0x2
  | .compute _ => 0x3
  | .read _ => 0x4
  | .readExact _ => 0x5
  | .xor _ => 0x6
  | .reset => 0x7

/-- The operand, which stands in the word from bit 8 up; 0 for format Z (30_encoding.md R80). -/
def operandOf : Instr → Nat
  | .create d => d
  | .goto => 0
  | .compute f => f
  | .read n => n
  | .readExact n => n
  | .xor n => n
  | .reset => 0

/-- The command word of an instruction: `(operand << 8) | opcode` (30_encoding.md R86). -/
def encode (i : Instr) : Word := BitVec.ofNat 32 (operandOf i <<< 8 ||| opcodeOf i)

/-- The row's mask in the opcode map (30_encoding.md R82). -/
def rowMask : Instr → Word
  | .create _ => 0xFFFFC0FF#32
  | .goto => 0xFFFFFFFF#32
  | .compute _ => 0xFFFFC0FF#32
  | .read _ => 0x000000FF#32
  | .readExact _ => 0x000000FF#32
  | .xor _ => 0x000000FF#32
  | .reset => 0xFFFFFFFF#32

/-- The row's match in the opcode map (30_encoding.md R82). -/
def rowMatch : Instr → Word
  | .create _ => 0x00000001#32
  | .goto => 0x00000002#32
  | .compute _ => 0x00000003#32
  | .read _ => 0x00000004#32
  | .readExact _ => 0x00000005#32
  | .xor _ => 0x00000006#32
  | .reset => 0x00000007#32

/-- The word of the opcode table's numbering, `nbits` bits of `w`, every higher bit 0. -/
def tableWord (nbits w : Nat) : Word := BitVec.ofNat 32 (w % 2 ^ nbits)

/-- The instruction the decoder reads from a word numbered as spec/opcode_table.json numbers it. A command is one
32-bit word (30_encoding.md R80), so the table's number is the word. -/
def decodeTableWord (nbits w : Nat) : Option Instr :=
  match decode (tableWord nbits w) with
  | .ok i => some i
  | .error _ => none

end Sys2Proof
end

