-- ==== Sys2Proof/Machine/State.lean ====
section
/-! DEFINITION. The machine's state as plain data: the engine's state of 10_state.md R22, the host agent, and the
model's own bookkeeping; the reasons a step can stop; the state after reset. -/

namespace Sys2Proof.Machine

/-- `st` (10_state.md R23). -/
inductive St where
  /-- 0: no keystream instance -/
  | unconfigured
  /-- 1: an instance exists and the current leaf has at least one unemitted byte -/
  | ready
  /-- 2: the leaf with index `mask` has been fully emitted -/
  | exhausted
  /-- 3: an error ended a command -/
  | fault
deriving DecidableEq, Repr

/-- `err`, the codes 0x0 to 0x5; 0x6 to 0xF are never written (60_exceptions.md R180). -/
inductive ErrorCode where
  /-- 0x0: no error since the last successful CREATE or reset -/
  | none
  /-- 0x1: the command word decodes to ILLEGAL -/
  | illegalCommand
  /-- 0x2: CREATE with a depth outside 1..32 -/
  | configError
  /-- 0x3: a keystream command with no instance -/
  | notConfigured
  /-- 0x4: a pull the instance cannot satisfy -/
  | capacityError
  /-- 0x5: a command word written while busy -/
  | overrun
deriving DecidableEq, Repr

/-- The command latch: the command word and the copies of ARG_PATH and SEED_IN0..7 taken at its CMD write
(10_state.md R41). -/
structure Pending where
  word : Word
  argPath : Word
  seedIn : Vector Word 8
deriving DecidableEq, Repr

/-- One operation of a host program (30_encoding.md R86, R87; 70_reset_and_hazards.md R223). -/
inductive HostOp where
  /-- `MemWrite(addr, width, v)`; `W off, v` is the one at `ENGINE_BASE + off`, 4 bytes wide -/
  | write (addr width : Nat) (v : Word)
  /-- `MemRead(addr, width)`; `R off` is the one at `ENGINE_BASE + off`, 4 bytes wide -/
  | read (addr width : Nat)
  /-- `PUSH b`: push a byte into DIN -/
  | push (b : Byte)
  /-- `POPK`: pop one byte from KS_OUT -/
  | popKs
  /-- `POPD`: pop one byte from DOUT -/
  | popDout
  /-- a push of the chunk loop: as `push`, and the run ends when the engine has failed (41_cipher.md R155; log 27) -/
  | pushOrStop (b : Byte)
  /-- a pop of the chunk loop: as `popDout`, and the run ends when the engine has failed (41_cipher.md R155; log 27) -/
  | popDoutOrStop
  /-- `WAIT`: repeat `R 0x004 -> s` until `s[2] = 0` -/
  | wait
  /-- `CHECK`: `R 0x004 -> s`; the program fails unless `s[1:0] ≠ 3` -/
  | check
  /-- the host's own comparison of an input length with the LAST_BYTE value it has just read (R223) -/
  | checkCapacity (len : Nat)
  /-- the same comparison for an initial path, with the LAST_LEAF value the host has just read (R223) -/
  | checkCapacityFrom (path : Word) (len : Nat)
deriving DecidableEq, Repr

/-- What the host has learnt or done: the values it read, the bytes it popped, and how its program stopped. -/
inductive HostEvent where
  /-- the value read at an address -/
  | readValue (addr : Nat) (v : Word)
  /-- a byte popped from KS_OUT -/
  | poppedKs (b : Byte)
  /-- a byte popped from DOUT -/
  | poppedDout (b : Byte)
  /-- CHECK, or the chunk loop while it waited, found STATE = FAULT; the program stops -/
  | checkFailed
  /-- the input is longer than LAST_BYTE; the program stops -/
  | inputRefused (len : Nat)
deriving DecidableEq, Repr

/-- Who moves next (log 6). -/
inductive Turn where
  /-- one engine step -/
  | engine
  /-- the next operation of the host's script -/
  | host
  /-- the hardware reset input (70_reset_and_hazards.md R220) -/
  | hardwareReset
deriving DecidableEq, Repr

/-- The whole machine: first the engine's state, row by row of 10_state.md R22, then the host agent (10_state.md
R20, R21), then the model's own fields. -/
structure State where
  /-- the seed latched by the last successful CREATE -/
  seed : B32
  /-- configured depth, 0 means no instance -/
  depth : Fin 33
  /-- current path -/
  path : Word
  /-- the node chain -/
  nodes : Nodes
  /-- read offset, bytes of `nodes[depth-1]` already emitted -/
  offset : Fin 33
  /-- engine state -/
  st : St
  /-- code of the most recent error -/
  err : ErrorCode
  /-- a command is latched and not finished -/
  busy : Bool
  /-- the command being executed and its latched operands -/
  pend : Option Pending
  /-- bytes still to move for the running data command -/
  rem : BitVec 24
  /-- bytes already moved by the running data command -/
  cnt : BitVec 24
  /-- a command word arrived while busy -/
  ovr : Bool
  /-- count returned by the last data command -/
  result : Word
  /-- host argument register ARG_PATH -/
  argPath : Word
  /-- host seed staging registers SEED_IN0..7 -/
  seedIn : Vector Word 8
  /-- byte channel KS_OUT, oldest byte first -/
  ksOut : List Byte
  /-- byte channel DIN, oldest byte first -/
  din : List Byte
  /-- byte channel DOUT, oldest byte first -/
  dout : List Byte
  /-- the host agent: what is left of its program -/
  script : List HostOp
  /-- the host agent: what it has seen, newest first -/
  log : List HostEvent
  /-- the model's own: who moves next; when empty, the engine (log 6) -/
  turns : List Turn
  /-- the model's own: number of the next free draw (log 9) -/
  draws : Nat
  /-- the model's own: applications of H so far, read by no rule (log 15) -/
  hashes : Nat
deriving DecidableEq, Repr

/-- Why the machine stops with a fault. None of these is one of the spec's errors: those are next states in which
`st` is `fault` (60_exceptions.md R182). -/
inductive Fault where
  /-- Raised by the engine's step, CREATE and GOTO where `busy` is 1 and the latch is empty. No state a run reaches
  is like that (10_state.md R41). Safe. -/
  | noLatchedCommand
  /-- Raised by a byte step where depth is 0 or offset is 32, so that there is no byte `nodes[depth-1][offset]`. No
  state a run reaches is like that (40_keystream.md R106). Safe. -/
  | noLeafByte
  /-- Raised by a host access to an address outside the window (20_memory.md R60). Safe. -/
  | outsideWindow
deriving DecidableEq, Repr

/-- Why the model gives no meaning. -/
inductive Refusal where
  /-- Raised by an arm of `exec` for an instruction without a meaning. No arm is like that. Safe. -/
  | notModelled (mnemonic : String)
  /-- Raised by a host access to the window that is not an aligned 4-byte access: "a model refuses it"
  (20_memory.md R65). Safe. -/
  | undefinedAccess
deriving DecidableEq, Repr

/-- The machine right after reset: every row of 10_state.md R22 at the value that table gives
(70_reset_and_hazards.md R220); the host has no program and nothing is scheduled (log 6, 7, 9, 15). -/
def State.reset : State where
  seed := zero32
  depth := 0
  path := 0#32
  nodes := Vector.replicate 32 zero32
  offset := 0
  st := .unconfigured
  err := .none
  busy := false
  pend := none
  rem := 0#24
  cnt := 0#24
  ovr := false
  result := 0#32
  argPath := 0#32
  seedIn := Vector.replicate 8 0#32
  ksOut := []
  din := []
  dout := []
  script := []
  log := []
  turns := []
  draws := 0
  hashes := 0

end Sys2Proof.Machine
end

