-- ==== Sys2Proof/Machine/Ops.lean ====
section
/-! DEFINITION. The named operations the commands share: raising an error (60_exceptions.md R182), the command
lifecycle (42_control.md R171 to R173), reset (R170), the chain operations on the state (40_keystream.md R101, R103 to
R105) and the byte steps (R106, 41_cipher.md R150). -/

namespace Sys2Proof.Machine

/-- What one step answers. -/
abbrev Result := Host.Outcome State Fault Refusal

/-- `raise E` (60_exceptions.md R182): the one way an error is entered. -/
def State.raise (s : State) (e : ErrorCode) : State :=
  { s with st := .fault, err := e, pend := none, rem := 0#24, cnt := 0#24, ovr := false, busy := false }

/-- `finish` (42_control.md R173): with an overrun recorded it enters FAULT with OVERRUN. -/
def State.finish (s : State) : State :=
  if s.ovr then
    { s with pend := none, rem := 0#24, cnt := 0#24, busy := false, ovr := false, st := .fault, err := .overrun }
  else
    { s with pend := none, rem := 0#24, cnt := 0#24, busy := false }

/-- `finish-ignored` (42_control.md R172): the latch is emptied, busy becomes 0, nothing else changes (log 11). -/
def State.finishIgnored (s : State) : State := { s with pend := none, busy := false }

/-- Issue of word `v` while not busy (42_control.md R171): the operands are latched now. -/
def State.issue (s : State) (v : Word) : State :=
  { s with pend := some { word := v, argPath := s.argPath, seedIn := s.seedIn }, busy := true, ovr := false }

/-- Every item of 10_state.md R22 takes its reset value (42_control.md R170, 70_reset_and_hazards.md R220); the host
agent and the model's own fields are no part of the engine (log 25). -/
def State.resetEngine (s : State) : State :=
  { State.reset with script := s.script, log := s.log, turns := s.turns, draws := s.draws, hashes := s.hashes }

/-- `mask` (10_state.md R24). -/
def State.mask (s : State) : Word := maskOf s.depth.val

/-- `compute(f)` (40_keystream.md R101): `max(0, depth - f)` applications of H. -/
def State.compute (s : State) (f : Nat) : State :=
  { s with
    nodes := computeLevels Config.hash s.seed s.path s.depth.val (s.depth.val - f) f s.nodes
    hashes := s.hashes + (s.depth.val - f) }

/-- `goto(new)` (40_keystream.md R103). -/
def State.traverse (s : State) (new : Word) : State :=
  { State.compute { s with path := new } (divergence s.path new s.depth.val) with offset := 0, st := .ready }

/-- `avail()` (40_keystream.md R104). -/
def State.avail (s : State) : Nat :=
  if s.st = .exhausted then 0
  else (s.mask.toNat - (s.path &&& s.mask).toNat) * 32 + (32 - s.offset.val)

/-- `adv1()` (40_keystream.md R105). -/
def State.adv1 (s : State) : State :=
  if s.offset.val + 1 < 32 then { s with offset := Fin.ofNat 33 (s.offset.val + 1) }
  else if s.path &&& s.mask ≠ s.mask then s.traverse (s.path + 1#32)
  else { s with offset := 32, st := .exhausted }

/-- The byte `nodes[depth-1][offset]`, where there is one (40_keystream.md R105). -/
def State.leafByte (s : State) : Option Byte :=
  if 0 < s.depth.val then s.nodes[s.depth.val - 1]?.bind fun leaf => leaf[s.offset.val]? else none

/-- `rem <- rem - 1; cnt <- cnt + 1` (40_keystream.md R106). -/
def State.countByte (s : State) : State := { s with rem := s.rem - 1#24, cnt := s.cnt + 1#24 }

/-- `if rem == 0: result <- r; finish` (40_keystream.md R106, 41_cipher.md R150). -/
def State.endIfDone (s : State) (r : Word) : State :=
  if s.rem = 0#24 then State.finish { s with result := r } else s

/-- `construct` of CREATE's body up to its `finish` (40_keystream.md R108). -/
def State.construct (s : State) (d : Nat) (p0 : Word) (seed : B32) : State :=
  { State.compute { s with seed := seed, depth := Fin.ofNat 33 d, path := p0, nodes := Vector.replicate 32 zero32 } 0
    with offset := 0, st := .ready, err := .none, result := 0#32, ksOut := [], din := [], dout := [] }

/-- Which states admit a keystream command (60_exceptions.md R185, 42_control.md R172): ignored in FAULT,
NOT_CONFIGURED in UNCONFIGURED, else the body runs. -/
def State.ifConfigured (s : State) (body : State → State) : State :=
  match s.st with
  | .fault => s.finishIgnored
  | .unconfigured => s.raise .notConfigured
  | .ready => body s
  | .exhausted => body s

/-- Dispatch of a word that decodes to ILLEGAL (42_control.md R172). -/
def State.dispatchIllegal (s : State) : State :=
  if s.st = .fault then s.finishIgnored else s.raise .illegalCommand

/-- A data command of length 0: `result <- 0; finish` (40_keystream.md R111, R112, 41_cipher.md R150). -/
def State.finishEmpty (s : State) : State := State.finish { s with result := 0#32 }

/-- `rem <- n; cnt <- 0`: a data command starts to move bytes. -/
def State.startBytes (s : State) (n : Nat) : State := { s with rem := BitVec.ofNat 24 n, cnt := 0#24 }

/-- The first step of an all-or-nothing pull of `len` bytes (40_keystream.md R112, 41_cipher.md R150). -/
def State.startPull (len : Nat) (s : State) : State :=
  if len = 0 then s.finishEmpty
  else if s.avail < len then s.raise .capacityError
  else s.startBytes len

/-- `ks_step()` (40_keystream.md R106): while KS_OUT is full the engine holds, which is a step that changes nothing
(log 8). -/
def State.ksStep (s : State) : Result :=
  if s.ksOut.length < Config.fifoDepth then
    match s.leafByte with
    | none => .fault .noLeafByte
    | some k =>
      let t := (State.adv1 { s with ksOut := s.ksOut ++ [k] }).countByte
      .next (t.endIfDone (t.cnt.setWidth 32))
  else .next s

/-- `xor_step()` (41_cipher.md R150): while DIN is empty or DOUT is full the engine holds (log 8). -/
def State.xorStep (len : Nat) (s : State) : Result :=
  match s.din with
  | [] => .next s
  | x :: rest =>
    if s.dout.length < Config.fifoDepth then
      match s.leafByte with
      | none => .fault .noLeafByte
      | some k =>
        let a := State.adv1 { s with din := rest }
        let t := State.countByte { a with dout := a.dout ++ [x ^^^ k] }
        .next (t.endIfDone (BitVec.ofNat 32 len))
    else .next s

end Sys2Proof.Machine
end

