-- ==== Sys2Proof/Machine/Cipher.lean ====
section
/-! DEFINITION. The streaming XOR command (41_cipher.md R150). -/

namespace Sys2Proof.Machine

/-- XOR (41_cipher.md R150): the dispatch with its checks, or, with bytes still to move, one byte step (log 16). -/
def execXor (len : Nat) (s : State) : Result :=
  if s.rem = 0#24 then .next (s.ifConfigured (State.startPull len)) else s.xorStep len

end Sys2Proof.Machine
end

