-- ==== Sys2Proof/Machine/Control.lean ====
section
/-! DEFINITION. The control command RESET (42_control.md R170). -/

namespace Sys2Proof.Machine

/-- RESET (42_control.md R170): admitted in every state, never raises an error. -/
def execReset (s : State) : Result := .next s.resetEngine

end Sys2Proof.Machine
end

