-- ==== Sys2Proof/Machine/Operands.lean ====
section
/-! DEFINITION. Operands that are not in the command word, and the packing of byte strings into 32-bit words
(10_state.md R38, R39, R41; 20_memory.md R63). -/

namespace Sys2Proof.Machine

/-- Byte `4k+j` of the seed is `SEED_INk[8j+7:8j]` (10_state.md R38). -/
def seedOfWords (w : Vector Word 8) : B32 :=
  Vector.ofFn fun n => (w[n.val / 4]).extractLsb' (8 * (n.val % 4)) 8

/-- The 32-bit word holding bytes `4q` to `4q+3` of a byte string, little-endian (20_memory.md R63). -/
def wordOfBytes (x : B32) (q : Fin 8) : Word :=
  x[4 * q.val + 3] ++ x[4 * q.val + 2] ++ x[4 * q.val + 1] ++ x[4 * q.val]

/-- The eight words that hold a byte string, as SETSEED writes them (30_encoding.md R87). -/
def wordsOfSeed (x : B32) : Vector Word 8 := Vector.ofFn (wordOfBytes x)

/-- The seed operand of CREATE: the 32 bytes latched at its CMD write (30_encoding.md R81, 10_state.md R41). -/
def Pending.seed (p : Pending) : B32 := seedOfWords p.seedIn

end Sys2Proof.Machine
end

