-- ==== Sys2Proof/Machine/Keystream.lean ====
section
/-! DEFINITION. The keystream commands CREATE, GOTO, COMPUTE, READ, READ_EXACT (40_keystream.md). Each meaning is the
engine step of its command in a state where it is latched: the dispatch with the body (42_control.md R172), or, for
READ and READ_EXACT with bytes still to move, one byte step (log 16). -/

namespace Sys2Proof.Machine

/-- CREATE (40_keystream.md R108): admitted in every state. -/
def execCreate (depth : Nat) (s : State) : Result :=
  match s.pend with
  | none => .fault .noLatchedCommand
  | some p =>
    if depth = 0 ∨ 32 < depth then .next (s.raise .configError)
    else .next (s.construct depth p.argPath p.seed).finish

/-- GOTO (40_keystream.md R110). -/
def execGoto (s : State) : Result :=
  match s.pend with
  | none => .fault .noLatchedCommand
  | some p => .next (s.ifConfigured fun t => (t.traverse p.argPath).finish)

/-- COMPUTE (40_keystream.md R109). -/
def execCompute (fromLevel : Nat) (s : State) : Result :=
  .next (s.ifConfigured fun t => (t.compute fromLevel).finish)

/-- The first step of READ: at most the rest of the current leaf (40_keystream.md R111). -/
def State.startRead (len : Nat) (s : State) : State :=
  if len = 0 then s.finishEmpty
  else if s.st = .exhausted then s.raise .capacityError
  else s.startBytes (min len (32 - s.offset.val))

/-- READ (40_keystream.md R111). -/
def execRead (len : Nat) (s : State) : Result :=
  if s.rem = 0#24 then .next (s.ifConfigured (State.startRead len)) else s.ksStep

/-- READ_EXACT (40_keystream.md R112). -/
def execReadExact (len : Nat) (s : State) : Result :=
  if s.rem = 0#24 then .next (s.ifConfigured (State.startPull len)) else s.ksStep

end Sys2Proof.Machine
end

