-- ==== Sys2Proof/Machine/Dispatch.lean ====
section
/-! DEFINITION. One arm per command of spec/opcode_table.json. -/

namespace Sys2Proof.Machine

def exec (i : Instr) (s : State) : Host.Outcome State Fault Refusal :=
  match i with
  | .create depth => Sys2Proof.Machine.execCreate depth s
  | .goto => Sys2Proof.Machine.execGoto s
  | .compute fromLevel => Sys2Proof.Machine.execCompute fromLevel s
  | .read len => Sys2Proof.Machine.execRead len s
  | .readExact len => Sys2Proof.Machine.execReadExact len s
  | .xor len => Sys2Proof.Machine.execXor len s
  | .reset => Sys2Proof.Machine.execReset s

end Sys2Proof.Machine
end

