-- ==== Sys2Proof/Machine/Engine.lean ====
section
/-! DEFINITION. One step of the engine (42_control.md R172, 60_exceptions.md R196). -/

namespace Sys2Proof.Machine

/-- The engine's step: nothing while not busy (60_exceptions.md R196); else the latched word is decoded and its
command makes its next step, or an illegal word is dispatched (42_control.md R172). -/
def engineStep (s : State) : Result :=
  if s.busy then
    match s.pend with
    | none => .fault .noLatchedCommand
    | some p =>
      match decode p.word with
      | .ok i => exec i s
      | .error _ => .next s.dispatchIllegal
  else .next s

end Sys2Proof.Machine
end

