-- ==== Sys2Proof/Machine/Flags.lean ====
section
/-! DEFINITION. The codes of the status flags and the STATUS word (10_state.md R23, R29; 60_exceptions.md R180). -/

namespace Sys2Proof.Machine

/-- STATUS.STATE (10_state.md R23). -/
def stCode : St → BitVec 2
  | .unconfigured => 0#2
  | .ready => 1#2
  | .exhausted => 2#2
  | .fault => 3#2

/-- STATUS.ERRCODE (60_exceptions.md R180). -/
def errCode : ErrorCode → BitVec 4
  | .none => 0x0#4
  | .illegalCommand => 0x1#4
  | .configError => 0x2#4
  | .notConfigured => 0x3#4
  | .capacityError => 0x4#4
  | .overrun => 0x5#4

/-- The STATUS word: STATE in bits 1:0, BUSY in bit 2, ERRCODE in bits 7:4, reserved bits 0 (10_state.md R29). -/
def statusWord (stBits : BitVec 2) (busy : Bool) (errBits : BitVec 4) : Word :=
  0#24 ++ errBits ++ 0#1 ++ BitVec.ofBool busy ++ stBits

/-- STATUS.STATE of a STATUS word. -/
def stateField (v : Word) : BitVec 2 := v.extractLsb' 0 2

/-- STATUS.BUSY of a STATUS word. -/
def busyField (v : Word) : Bool := v.getLsbD 2

/-- STATUS.ERRCODE of a STATUS word. -/
def errField (v : Word) : BitVec 4 := v.extractLsb' 4 4

end Sys2Proof.Machine
end

