-- ==== Sys2Proof/Machine/Window.lean ====
section
/-! DEFINITION. The register window as the host sees it (10_state.md R27 to R40; 20_memory.md R62, R65;
70_reset_and_hazards.md R224, R225). -/

namespace Sys2Proof.Machine

/-- What stands at an offset of the window (10_state.md R27). -/
inductive Reg where
  | cmd
  | status
  | argPath
  | result
  | depth
  | curPath
  | offset
  | lastLeaf
  | lastByteLo
  | lastByteHi
  | seedIn (k : Fin 8)
  | node (slot : Fin 32) (quarter : Fin 8)
  | reserved
deriving DecidableEq, Repr

/-- The register map by byte offset (10_state.md R27, R40). -/
def regAt (off : Nat) : Reg :=
  if off = 0x000 then .cmd
  else if off = 0x004 then .status
  else if off = 0x008 then .argPath
  else if off = 0x00C then .result
  else if off = 0x010 then .depth
  else if off = 0x014 then .curPath
  else if off = 0x018 then .offset
  else if off = 0x01C then .lastLeaf
  else if off = 0x020 then .lastByteLo
  else if off = 0x024 then .lastByteHi
  else if 0x040 ≤ off ∧ off < 0x060 then .seedIn (Fin.ofNat 8 ((off - 0x040) / 4))
  else if 0x400 ≤ off ∧ off < 0x800 then
    .node (Fin.ofNat 32 ((off - 0x400) / 32)) (Fin.ofNat 8 ((off - 0x400) % 32 / 4))
  else .reserved

/-- `LB = mask * 32` (10_state.md R36). -/
def State.lastByte (s : State) : Nat := s.mask.toNat * 32

/-- What a register reads as while the engine is not busy (10_state.md R28 to R40). -/
def State.quietReg (s : State) : Reg → Word
  | .cmd => 0#32
  | .status => statusWord (stCode s.st) s.busy (errCode s.err)
  | .argPath => s.argPath
  | .result => (s.result.setWidth 24).setWidth 32
  | .depth => BitVec.ofNat 32 s.depth.val
  | .curPath => s.path
  | .offset => BitVec.ofNat 32 s.offset.val
  | .lastLeaf => s.mask
  | .lastByteLo => BitVec.ofNat 32 s.lastByte
  | .lastByteHi => BitVec.ofNat 32 (s.lastByte / 2 ^ 32)
  | .seedIn _ => 0#32
  | .node slot quarter => wordOfBytes s.nodes[slot.val] quarter
  | .reserved => 0#32

/-- A read that took the free draw (70_reset_and_hazards.md R225): the next one takes another. -/
def State.drawn (s : State) : State := { s with draws := s.draws + 1 }

/-- Reading a register (20_memory.md R62, R67): the value, and the state with the free draw counted. While busy,
STATUS.BUSY, ARG_PATH and the always-zero reads are exact and every other value is free (70_reset_and_hazards.md R225;
log 9). -/
def State.readReg (s : State) (r : Reg) : Word × State :=
  if s.busy then
    match r with
    | .cmd => (0#32, s)
    | .seedIn _ => (0#32, s)
    | .reserved => (0#32, s)
    | .argPath => (s.argPath, s)
    | .status =>
      (statusWord (stateField (Config.busyRead s.draws)) true (errField (Config.busyRead s.draws)), s.drawn)
    | .result => (Config.busyRead s.draws, s.drawn)
    | .depth => (Config.busyRead s.draws, s.drawn)
    | .curPath => (Config.busyRead s.draws, s.drawn)
    | .offset => (Config.busyRead s.draws, s.drawn)
    | .lastLeaf => (Config.busyRead s.draws, s.drawn)
    | .lastByteLo => (Config.busyRead s.draws, s.drawn)
    | .lastByteHi => (Config.busyRead s.draws, s.drawn)
    | .node _ _ => (Config.busyRead s.draws, s.drawn)
  else (s.quietReg r, s)

/-- A write of `v` to CMD: issue while not busy (42_control.md R171); while busy RESET takes effect (log 10) and any
other word is discarded and recorded as an overrun (70_reset_and_hazards.md R224, 60_exceptions.md R188). -/
def State.writeCmd (s : State) (v : Word) : State :=
  if s.busy then
    if v = 0x00000007#32 then s.resetEngine else { s with ovr := true }
  else s.issue v

/-- Writing a register: CMD issues, ARG_PATH and SEED_INk store, every other write is ignored (20_memory.md R67). -/
def State.writeReg (s : State) (r : Reg) (v : Word) : State :=
  match r with
  | .cmd => s.writeCmd v
  | .argPath => { s with argPath := v }
  | .seedIn k => { s with seedIn := s.seedIn.set k.val v }
  | .status => s
  | .result => s
  | .depth => s
  | .curPath => s
  | .offset => s
  | .lastLeaf => s
  | .lastByteLo => s
  | .lastByteHi => s
  | .node _ _ => s
  | .reserved => s

/-- How a host access meets the window. -/
inductive Access where
  /-- an aligned 4-byte access at this offset (20_memory.md R62) -/
  | at (off : Nat)
  /-- the address is not in the window (20_memory.md R60) -/
  | outside
  /-- another width or alignment (20_memory.md R65) -/
  | undefined
deriving DecidableEq, Repr

/-- The offset a host access reaches, or why it reaches none (10_state.md R27, 20_memory.md R62, R65; log 13). -/
def windowAccess (addr width : Nat) : Access :=
  if addr < Config.engineBase ∨ Config.engineBase + 4096 ≤ addr then .outside
  else if width = 4 ∧ (addr - Config.engineBase) % 4 = 0 then .at (addr - Config.engineBase)
  else .undefined

end Sys2Proof.Machine
end

