-- ==== Sys2Proof/Machine/HostAgent.lean ====
section
/-! DEFINITION. The host: one operation of its program (30_encoding.md R86), the assembler and the pseudo-instructions
(R86, R87), and the chunk loop (41_cipher.md R153). -/

namespace Sys2Proof.Machine

/-- The host records what it has seen. -/
def State.record (s : State) (e : HostEvent) : State := { s with log := e :: s.log }

/-- The host has done the first operation of its program. -/
def State.opDone (s : State) : State := { s with script := s.script.tail }

/-- The host stops its program (30_encoding.md R87 CHECK, 70_reset_and_hazards.md R223; log 20). -/
def State.stopScript (s : State) (e : HostEvent) : State := { s with script := [], log := e :: s.log }

/-- `MemRead(addr, width)` (20_memory.md R62): the value read and the state after it. -/
def State.memRead (s : State) (addr width : Nat) : Host.Outcome (Word × State) Fault Refusal :=
  match windowAccess addr width with
  | .at off =>
    let r := s.readReg (regAt off)
    .next (r.1, r.2.record (.readValue addr r.1))
  | .outside => .fault .outsideWindow
  | .undefined => .refused .undefinedAccess

/-- `MemWrite(addr, width, v)` (20_memory.md R62). -/
def State.memWrite (s : State) (addr width : Nat) (v : Word) : Result :=
  match windowAccess addr width with
  | .at off => .next (s.writeReg (regAt off) v)
  | .outside => .fault .outsideWindow
  | .undefined => .refused .undefinedAccess

/-- The address of STATUS (10_state.md R27). -/
def statusAddr : Nat := Config.engineBase + 0x004

/-- The LAST_BYTE value of the host's two latest reads, LAST_BYTE_LO and then LAST_BYTE_HI (70_reset_and_hazards.md
R223; log 20). -/
def lastByteRead : List HostEvent → Option Nat
  | .readValue ahi hi :: .readValue alo lo :: _ =>
    if alo = Config.engineBase + 0x020 ∧ ahi = Config.engineBase + 0x024 then
      some (hi.toNat * 2 ^ 32 + lo.toNat)
    else none
  | _ => none

/-- Whether the host may go on with an input of `len` bytes: it refuses it when `len > LAST_BYTE`
(70_reset_and_hazards.md R223). -/
def inputAccepted (log : List HostEvent) (len : Nat) : Bool :=
  match lastByteRead log with
  | some lb => len ≤ lb
  | none => false

/-- The LAST_LEAF value of the host's latest read (70_reset_and_hazards.md R223; log 20). -/
def lastLeafRead : List HostEvent → Option Word
  | .readValue a v :: _ => if a = Config.engineBase + 0x01C then some v else none
  | _ => none

/-- Whether the host may go on with an input of `len` bytes from initial path `p0`: the bound is
`(mask - (p0 & mask) + 1) * 32` (70_reset_and_hazards.md R223). -/
def inputAcceptedFrom (log : List HostEvent) (p0 : Word) (len : Nat) : Bool :=
  match lastLeafRead log with
  | some mask => len ≤ (mask.toNat - (p0 &&& mask).toNat + 1) * 32
  | none => false

/-- The host reads STATUS and goes on as `k` says from the value it read (30_encoding.md R87, WAIT and CHECK). -/
def State.onStatus (s : State) (k : Word → State → State) : Result :=
  match s.memRead statusAddr 4 with
  | .next r => .next (k r.1 r.2)
  | .fault f => .fault f
  | .refused r => .refused r

/-- What the chunk loop does while it can neither push nor pop: it reads STATUS and stops where the command has ended in
an error, since no byte will move then; else it waits (41_cipher.md R155; log 27). -/
def State.stopOnFailure (s : State) : Result :=
  s.onStatus fun v t => if busyField v = false ∧ stateField v = 3#2 then t.stopScript .checkFailed else t

/-- The host pushes `b` into DIN if there is room; else it does what `full` says (10_state.md R37). -/
def State.pushElse (s : State) (b : Byte) (full : Result) : Result :=
  if s.din.length < Config.fifoDepth then .next (State.opDone { s with din := s.din ++ [b] }) else full

/-- The host pops a byte from DOUT if there is one; else it does what `empty` says (10_state.md R37). -/
def State.popDoutElse (s : State) (empty : Result) : Result :=
  match s.dout with
  | [] => empty
  | b :: rest => .next (State.record (State.opDone { s with dout := rest }) (.poppedDout b))

/-- The next operation of the host's program (30_encoding.md R86, R87). A push into a full DIN and a pop from an
empty channel wait: the host does them only when they can be done (10_state.md R37; log 7). -/
def hostStep (s : State) : Result :=
  match s.script with
  | [] => .next s
  | .write addr width v :: _ => s.opDone.memWrite addr width v
  | .read addr width :: _ =>
    match s.opDone.memRead addr width with
    | .next r => .next r.2
    | .fault f => .fault f
    | .refused r => .refused r
  | .push b :: _ => s.pushElse b (.next s)
  | .popKs :: _ =>
    match s.ksOut with
    | [] => .next s
    | b :: rest => .next (State.record (State.opDone { s with ksOut := rest }) (.poppedKs b))
  | .popDout :: _ => s.popDoutElse (.next s)
  | .pushOrStop b :: _ => s.pushElse b s.stopOnFailure
  | .popDoutOrStop :: _ => s.popDoutElse s.stopOnFailure
  | .wait :: _ => s.onStatus fun v t => if busyField v then t else t.opDone
  | .check :: _ => s.onStatus fun v t => if stateField v = 3#2 then t.stopScript .checkFailed else t.opDone
  | .checkCapacity len :: _ =>
    .next (if inputAccepted s.log len then s.opDone else s.stopScript (.inputRefused len))
  | .checkCapacityFrom p0 len :: _ =>
    .next (if inputAcceptedFrom s.log p0 len then s.opDone else s.stopScript (.inputRefused len))

/-- `W off, v` (30_encoding.md R86). -/
def writeAt (off : Nat) (v : Word) : HostOp := .write (Config.engineBase + off) 4 v

/-- `R off` (30_encoding.md R86). -/
def readAt (off : Nat) : HostOp := .read (Config.engineBase + off) 4

/-- A command line of the assembler syntax: the CMD write of its word; other operand values are refused
(30_encoding.md R86). -/
def assemble (i : Instr) : Option HostOp := if i.wellFormed then some (writeAt 0x000 (encode i)) else none

/-- The CMD write of a command whose operand is in range (30_encoding.md R86). -/
def command (i : Instr) : HostOp := writeAt 0x000 (encode i)

/-- `SETPATH p` (30_encoding.md R87). -/
def setPath (p : Word) : List HostOp := [writeAt 0x008 p]

/-- `SETSEED s` (30_encoding.md R87). -/
def setSeed (x : B32) : List HostOp :=
  (List.finRange 8).map fun k => writeAt (0x040 + 4 * k.val) (wordOfBytes x k)

/-- `CREATEP d, p, s` (30_encoding.md R87), the boot order of 70_reset_and_hazards.md R222. -/
def createP (d : Nat) (p : Word) (x : B32) : List HostOp :=
  setSeed x ++ setPath p ++ [command (.create d), .wait]

/-- `GOTOP p` (30_encoding.md R87). -/
def gotoP (p : Word) : List HostOp := setPath p ++ [command .goto, .wait]

/-- `PULL n` (30_encoding.md R87). -/
def pull (n : Nat) : List HostOp := [command (.readExact n)] ++ List.replicate n .popKs ++ [.wait]

/-- The capacity check before a run over `len` bytes (70_reset_and_hazards.md R223). -/
def capacityCheck (len : Nat) : List HostOp := [readAt 0x020, readAt 0x024, .checkCapacity len]

/-- The capacity check before a run over `len` bytes from another initial path (70_reset_and_hazards.md R223). -/
def capacityCheckFrom (p0 : Word) (len : Nat) : List HostOp := [readAt 0x01C, .checkCapacityFrom p0 len]

/-- One pass of the chunk loop over the bytes `r`: push, XOR, pop, WAIT, CHECK (41_cipher.md R153). It needs
`r.length ≤ FIFO_DEPTH`. An XOR that fails emits no byte, so the first pop ends the run (R155). -/
def chunkPass (r : List Byte) : List HostOp :=
  r.map .pushOrStop ++ [command (.xor r.length)] ++ List.replicate r.length .popDoutOrStop ++ [.wait, .check]

/-- The same pass with pushing and popping overlapped with the running XOR, as it must be where FIFO_DEPTH is less
than the chunk (41_cipher.md R153). -/
def chunkPassOverlapped (r : List Byte) : List HostOp :=
  [command (.xor r.length)] ++ (r.map fun b => [.pushOrStop b, .popDoutOrStop]).flatten ++ [.wait, .check]

/-- At most `n` passes of the chunk loop: it stops after the first pass shorter than the chunk (41_cipher.md R153). -/
def chunkPasses (pass : List Byte → List HostOp) (chunk : Nat) : Nat → List Byte → List HostOp
  | 0, _ => []
  | n + 1, input =>
    pass (input.take chunk) ++
      (if (input.take chunk).length < chunk then [] else chunkPasses pass chunk n (input.drop chunk))

/-- The cipher loop `run` over an input, after a successful CREATE (41_cipher.md R153): the capacity check of
70_reset_and_hazards.md R223 and then the passes, of which there are `L / chunk + 1`. -/
def cipherRun (pass : List Byte → List HostOp) (chunk : Nat) (input : List Byte) : List HostOp :=
  capacityCheck input.length ++ chunkPasses pass chunk (input.length / chunk + 1) input

end Sys2Proof.Machine
end

