-- ==== Sys2Proof/Machine/Step.lean ====
section
/-! DEFINITION. The machine's step: the agent whose turn it is moves (10_state.md R20, 20_memory.md R70). -/

namespace Sys2Proof.Machine

/-- The move of one agent. -/
def takeTurn (t : Turn) (s : State) : Host.Outcome State Fault Refusal :=
  match t with
  | .engine => engineStep s
  | .host => hostStep s
  | .hardwareReset => .next s.resetEngine

/-- One step: the first of `turns` moves; where none is listed, the engine (log 6). -/
def step (s : State) : Host.Outcome State Fault Refusal :=
  match s.turns with
  | [] => engineStep s
  | t :: ts => takeTurn t { s with turns := ts }

/-- The state in which the word has just been written to CMD with the engine not busy (42_control.md R171) and the
next move is the engine's: a command word is taken from the CMD write itself (20_memory.md R74; log 5). -/
def State.withFetchWord (s : State) (nbits w : Nat) : State :=
  { s with
    pend := some { word := tableWord nbits w, argPath := s.argPath, seedIn := s.seedIn }
    busy := true
    ovr := false
    rem := 0#24
    cnt := 0#24
    turns := if s.turns.isEmpty then [] else .engine :: s.turns }

end Sys2Proof.Machine
end

