-- ==== Sys2Proof/Safety.lean ====
section
/-! DEFINITION. What counts as a good state and a good run: the invariants of 10_state.md R25, R26, R37 and R41 in one
predicate, runs of `step`, and the host's duty of 70_reset_and_hazards.md R224. -/

namespace Sys2Proof.Machine

/-- The data commands, which move bytes (10_state.md R41). -/
def movesBytes : Instr → Bool
  | .create _ => false
  | .goto => false
  | .compute _ => false
  | .read _ => true
  | .readExact _ => true
  | .xor _ => true
  | .reset => false

/-- Slot `i` of the node chain is the chain value of level `i` (10_state.md R25). -/
def State.levelRight (s : State) (i : Nat) : Prop :=
  s.nodes[i]? = some (chainval Config.hash s.seed s.path s.depth.val i)

/-- A data command with bytes left to move: what the byte steps rely on (40_keystream.md R106). -/
structure State.Running (s : State) : Prop where
  st : s.st = .ready
  enough : s.rem.toNat ≤ s.avail
  counted : s.rem.toNat + s.cnt.toNat < 2 ^ 24
  latched : ∃ p i, s.pend = some p ∧ decode p.word = .ok i ∧ movesBytes i = true

/-- The invariants of the engine's state. The spec states R25 and R26 whenever busy = 0; every engine step is atomic,
so they hold at every step. -/
structure Inv (s : State) : Prop where
  /-- chain invariant, levels below depth (10_state.md R25) -/
  chain : ∀ i, i < s.depth.val → s.levelRight i
  /-- chain invariant, unused slots (10_state.md R25) -/
  unused : ∀ i, s.depth.val ≤ i → i < 32 → s.nodes[i]? = some zero32
  /-- cursor invariant in READY (10_state.md R26) -/
  ready : s.st = .ready → 1 ≤ s.depth.val ∧ s.offset.val ≤ 31
  /-- cursor invariant in EXHAUSTED (10_state.md R26) -/
  exhausted : s.st = .exhausted → 1 ≤ s.depth.val ∧ s.offset.val = 32 ∧ s.path &&& s.mask = s.mask
  /-- cursor invariant in UNCONFIGURED (10_state.md R26) -/
  unconfigured : s.st = .unconfigured → s.depth.val = 0
  /-- a command is latched exactly while busy (10_state.md R41) -/
  latch : s.busy = s.pend.isSome
  /-- nothing is left to move where no command runs (10_state.md R41) -/
  idle : s.busy = false → s.rem = 0#24
  /-- nothing has been counted where nothing is left to move (10_state.md R41) -/
  fresh : s.rem = 0#24 → s.cnt = 0#24
  /-- a running data command can be served to its end (40_keystream.md R106) -/
  running : s.rem ≠ 0#24 → s.Running
  /-- each channel holds at most FIFO_DEPTH bytes (10_state.md R37) -/
  fifos : s.ksOut.length ≤ Config.fifoDepth ∧ s.din.length ≤ Config.fifoDepth ∧ s.dout.length ≤ Config.fifoDepth

/-- `k` steps of the machine, stopping at the first fault or refusal. -/
def runSteps : Nat → State → Result
  | 0, s => .next s
  | k + 1, s =>
    match step s with
    | .next t => runSteps k t
    | .fault f => .fault f
    | .refused r => .refused r

/-- The engine moves next: it has the turn, or nothing is scheduled (log 6). -/
def State.engineMoves (s : State) : Prop := s.turns = [] ∨ ∃ ts, s.turns = .engine :: ts

/-- The state as the engine's step sees it: the turn that is being taken is off the list. -/
def State.afterTurn (s : State) : State := { s with turns := s.turns.tail }

/-- The host's next operation is not a CMD write of a word other than RESET while busy (70_reset_and_hazards.md
R224). -/
def State.hostKeepsProtocol (s : State) : Prop :=
  ∀ addr width v rest, s.script = .write addr width v :: rest →
    windowAccess addr width = .at 0x000 → s.busy = true → v = 0x00000007#32

end Sys2Proof.Machine
end

