-- ==== Sys2Proof/Certificates/Slice0/Obligations.lean ====
section
/-! DEFINITION. The statements for the provers. Each docstring names the rule it formalises. `Expected` holds the
vocabulary of the statements: what a finished command (42_control.md R173) and a raised error (60_exceptions.md R182)
leave, written out field by field and independently of Machine/Ops.lean. -/

open Sys2Proof Sys2Proof.Machine

namespace Sys2Proof.Expected

/-- What a command leaves in the lifecycle fields when it completes without an error (42_control.md R173). -/
def finished (s : State) : State :=
  { s with
    st := if s.ovr then .fault else s.st
    err := if s.ovr then .overrun else s.err
    busy := false, pend := none, rem := 0#24, cnt := 0#24, ovr := false }

/-- What a raised error leaves: STATE, ERRCODE and the in-flight state change, nothing else (60_exceptions.md R182). -/
def raised (s : State) (e : ErrorCode) : State :=
  { s with st := .fault, err := e, busy := false, pend := none, rem := 0#24, cnt := 0#24, ovr := false }

/-- What an ignored command leaves: the latch empty, busy 0, nothing else (42_control.md R172). -/
def ignored (s : State) : State := { s with busy := false, pend := none }

/-- The engine after a reset of either kind; the host agent and the model's own fields stay (10_state.md R22,
70_reset_and_hazards.md R220). -/
def afterReset (s : State) : State :=
  { seed := zero32, depth := 0, path := 0#32, nodes := Vector.replicate 32 zero32, offset := 0
    st := .unconfigured, err := .none, busy := false, pend := none, rem := 0#24, cnt := 0#24, ovr := false
    result := 0#32, argPath := 0#32, seedIn := Vector.replicate 8 0#32, ksOut := [], din := [], dout := []
    script := s.script, log := s.log, turns := s.turns, draws := s.draws, hashes := s.hashes }

/-- The keystream byte under the cursor: byte `offset` of the leaf value of the current path (40_keystream.md R100,
R105). -/
def cursorByte (s : State) : Option Byte := (leafval Config.hash s.seed s.path s.depth.val)[s.offset.val]?

/-- The instance of `t` is that of `s` moved on by one delivered byte (40_keystream.md R105): within the leaf, to the
next leaf with its chain, or to the end of the last leaf. -/
def CursorMoved (s t : State) : Prop :=
  t.seed = s.seed ∧ t.depth = s.depth ∧
  (s.offset.val < 31 → t.offset.val = s.offset.val + 1 ∧ t.path = s.path ∧ t.nodes = s.nodes) ∧
  (s.offset.val = 31 → s.path &&& s.mask ≠ s.mask →
    t.offset.val = 0 ∧ t.path = s.path + 1#32 ∧
    (∀ i, i < s.depth.val → t.nodes[i]? = some (chainval Config.hash s.seed (s.path + 1#32) s.depth.val i)) ∧
    (∀ i, s.depth.val ≤ i → t.nodes[i]? = s.nodes[i]?)) ∧
  (s.offset.val = 31 → s.path &&& s.mask = s.mask →
    t.offset.val = 32 ∧ t.path = s.path ∧ t.nodes = s.nodes)

/-- STATE after one delivered byte, before any finish (40_keystream.md R105). -/
def stAfterByte (s : State) : St :=
  if s.offset.val = 31 ∧ s.path &&& s.mask = s.mask then .exhausted else .ready

/-- The in-flight fields, STATE, ERRCODE and RESULT after one byte step; `r` is the count a finished command
returns (40_keystream.md R106, 42_control.md R173). -/
def ByteCounted (s t : State) (r : Word) : Prop :=
  (s.rem ≠ 1#24 →
    t.rem = s.rem - 1#24 ∧ t.cnt = s.cnt + 1#24 ∧ t.busy = s.busy ∧ t.pend = s.pend ∧ t.ovr = s.ovr ∧
    t.result = s.result ∧ t.st = stAfterByte s ∧ t.err = s.err) ∧
  (s.rem = 1#24 →
    t.rem = 0#24 ∧ t.cnt = 0#24 ∧ t.busy = false ∧ t.pend = none ∧ t.ovr = false ∧ t.result = r ∧
    t.st = (if s.ovr then .fault else stAfterByte s) ∧ t.err = (if s.ovr then .overrun else s.err))

/-- Everything no byte step writes: the host's registers and the host agent. -/
def HostSideSame (s t : State) : Prop :=
  t.argPath = s.argPath ∧ t.seedIn = s.seedIn ∧ t.script = s.script ∧ t.log = s.log ∧ t.turns = s.turns ∧
  t.draws = s.draws

/-- The keystream commands, which need an instance (60_exceptions.md R185). -/
def NeedsInstance (i : Instr) : Prop :=
  i = .goto ∨ (∃ f, i = .compute f) ∨ (∃ n, i = .read n) ∨ (∃ n, i = .readExact n) ∨ (∃ n, i = .xor n)

/-- An instance exists and takes commands. -/
def HasInstance (s : State) : Prop := s.st = .ready ∨ s.st = .exhausted

/-- A READY engine with no command in flight and empty channels. -/
def ReadyToServe (s : State) : Prop :=
  Inv s ∧ s.st = .ready ∧ s.busy = false ∧ s.ksOut = [] ∧ s.din = [] ∧ s.dout = []

/-- An engine with an instance, READY or EXHAUSTED, with no command in flight and empty channels. -/
def CanServe (s : State) : Prop :=
  Inv s ∧ HasInstance s ∧ s.busy = false ∧ s.ksOut = [] ∧ s.din = [] ∧ s.dout = []

/-- The bytes number `o` to `o + n - 1` of the keystream that starts at the current leaf, with `o` the read offset
(40_keystream.md R107). -/
def keystreamFrom (s : State) (n : Nat) : List Byte :=
  (List.range n).map fun j => keystreamByte Config.hash s.seed s.path s.depth.val (s.offset.val + j)

/-- The bytes the host has popped from KS_OUT, oldest first. -/
def keysPopped (log : List HostEvent) : List Byte :=
  (log.filterMap fun e => match e with
    | .poppedKs b => some b
    | _ => none).reverse

/-- The bytes the host has popped from DOUT, oldest first. -/
def outputPopped (log : List HostEvent) : List Byte :=
  (log.filterMap fun e => match e with
    | .poppedDout b => some b
    | _ => none).reverse

/-- The host program that gives READ `n` and takes the `m` bytes it returns. -/
def readServed (n m : Nat) : List HostOp := [command (.read n)] ++ List.replicate m .popKs ++ [.wait]

/-- The order of moves in which the host serves a pull of `n` bytes: the CMD write, the dispatch, each byte step and
its pop, the WAIT. -/
def pullTurns (n : Nat) : List Turn :=
  [.host, .engine] ++ (List.replicate n [.engine, .host]).flatten ++ [.host]

/-- The order of moves in which the host serves an XOR of `n` bytes: the CMD write, the dispatch, for each byte the
push, the byte step and the pop, then WAIT and CHECK. -/
def passTurns (n : Nat) : List Turn :=
  [.host, .engine] ++ (List.replicate n [.host, .engine, .host]).flatten ++ [.host, .host]

/-- The host's program for a pull `i` that returns `m` bytes: the CMD write, the pops, WAIT. -/
def pullServed (i : Instr) (m : Nat) : List HostOp := [command i] ++ List.replicate m .popKs ++ [.wait]

/-- The pull `i`, made after `moved` bytes from the state `s`, is successful and moves `m` bytes: READ_EXACT its length,
READ at most the rest of the leaf, neither more than the instance can deliver (40_keystream.md R111, R112). -/
def IsPull (s : State) (moved : Nat) (i : Instr) (m : Nat) : Prop :=
  i.WellFormed ∧ moved + m ≤ s.avail ∧
  (i = .readExact m ∨ ∃ n, i = .read n ∧ m = min n (32 - (s.offset.val + moved) % 32))

/-- A sequence of successful READ and READ_EXACT commands, each with the bytes it moves, after `moved` bytes. -/
def ArePulls (s : State) : Nat → List (Instr × Nat) → Prop
  | _, [] => True
  | moved, (i, m) :: rest => IsPull s moved i m ∧ ArePulls s (moved + m) rest

/-- The chunk loop over an input, without the capacity check (41_cipher.md R153). -/
def loopOver (chunk : Nat) (input : List Byte) : List HostOp :=
  chunkPasses chunkPassOverlapped chunk (input.length / chunk + 1) input

/-- The order of moves of at most `n` passes over `len` bytes. -/
def passesTurns (chunk : Nat) : Nat → Nat → List Turn
  | 0, _ => []
  | n + 1, len =>
    passTurns (min chunk len) ++ (if min chunk len < chunk then [] else passesTurns chunk n (len - chunk))

/-- The order of moves in which the host serves the chunk loop over `len` bytes. -/
def loopTurns (chunk len : Nat) : List Turn := passesTurns chunk (len / chunk + 1) len

/-- The run in which the host has the program `ops` and the agents make the moves `ts`, to the last of them. -/
def runAll (s : State) (ops : List HostOp) (ts : List Turn) : Result :=
  runSteps ts.length { s with script := ops, turns := ts }

/-- The step from `s` to `t` is a reset, by the hardware reset input, by a latched RESET, or by the host's write of
RESET while busy (70_reset_and_hazards.md R220, 42_control.md R170; the last at the write: log 10). The host agent stays
(log 25). -/
def ResetStep (s t : State) : Prop :=
  ((∃ ts, s.turns = .hardwareReset :: ts) ∧ t = afterReset s.afterTurn) ∨
  (s.engineMoves ∧ s.busy = true ∧ (∃ p, s.pend = some p ∧ decode p.word = .ok .reset) ∧
    t = afterReset s.afterTurn) ∨
  ((∃ ts, s.turns = .host :: ts) ∧ s.busy = true ∧
    ∃ rest, s.script = writeAt 0x000 0x00000007#32 :: rest ∧ t = afterReset { s.afterTurn with script := rest })

/-- The engine moves and its latched command is a legal CREATE of depth `d` (40_keystream.md R108). -/
def CreateMoves (s : State) (p : Pending) (d : Nat) : Prop :=
  s.engineMoves ∧ s.busy = true ∧ s.pend = some p ∧ decode p.word = .ok (.create d) ∧ 1 ≤ d ∧ d ≤ 32

/-- What STATUS reads as while not busy, the codes as the spec numbers them (10_state.md R23, R29; 60_exceptions.md
R180). -/
def StatusReads (s : State) (v : Word) : Prop :=
  (s.st = .unconfigured → v.extractLsb' 0 2 = 0#2) ∧ (s.st = .ready → v.extractLsb' 0 2 = 1#2) ∧
  (s.st = .exhausted → v.extractLsb' 0 2 = 2#2) ∧ (s.st = .fault → v.extractLsb' 0 2 = 3#2) ∧
  v.getLsbD 2 = s.busy ∧ v.getLsbD 3 = false ∧
  (s.err = .none → v.extractLsb' 4 4 = 0x0#4) ∧ (s.err = .illegalCommand → v.extractLsb' 4 4 = 0x1#4) ∧
  (s.err = .configError → v.extractLsb' 4 4 = 0x2#4) ∧ (s.err = .notConfigured → v.extractLsb' 4 4 = 0x3#4) ∧
  (s.err = .capacityError → v.extractLsb' 4 4 = 0x4#4) ∧ (s.err = .overrun → v.extractLsb' 4 4 = 0x5#4) ∧
  v.extractLsb' 8 24 = 0#24

/-- The order of moves of CREATEP: ten host operations, the engine's step, the WAIT. -/
def createTurns : List Turn := List.replicate 10 .host ++ [.engine, .host]

/-- The cursor of `t` is that of `s` moved on by `n` bytes: within what is left, or to the end of the last leaf
(40_keystream.md R105, R107). -/
def MovedBy (s t : State) (n : Nat) : Prop :=
  (n < s.avail →
    t.st = .ready ∧ t.path = s.path + BitVec.ofNat 32 ((s.offset.val + n) / 32) ∧
    t.offset.val = (s.offset.val + n) % 32) ∧
  (n = s.avail →
    t.st = .exhausted ∧ t.path = s.path + BitVec.ofNat 32 ((s.offset.val + n - 1) / 32) ∧ t.offset.val = 32)

/-- A finished and served data command moved `n` bytes: RESULT, the lifecycle fields, the channels, the cursor and the
invariants. -/
def MoveDone (s t : State) (n : Nat) : Prop :=
  t.result = BitVec.ofNat 32 n ∧ t.busy = false ∧ t.err = s.err ∧ t.seed = s.seed ∧ t.depth = s.depth ∧
  t.ksOut = [] ∧ t.din = [] ∧ t.dout = [] ∧ MovedBy s t n ∧ Inv t

/-- The same keystream position: path, offset, STATE and node chain (40_keystream.md R114). -/
def SamePosition (s t : State) : Prop :=
  t.path = s.path ∧ t.offset = s.offset ∧ t.st = s.st ∧ t.nodes = s.nodes ∧ t.seed = s.seed ∧ t.depth = s.depth

end Sys2Proof.Expected

open Sys2Proof.Expected

/-! ## Reset -/

/-- 70_reset_and_hazards.md R220, 10_state.md R22: the machine right after reset. -/
def Obligations.ResetStateHoldsResetValues : Prop :=
  State.reset = afterReset State.reset ∧ Inv State.reset ∧ State.reset.script = [] ∧ State.reset.turns = []

/-- 70_reset_and_hazards.md R220: RESET, in every state, and the hardware reset input have the same effect: every item
of the engine's state takes its reset value, and every register of the window reads 0. That the host agent and the
model's own fields stay, for the hardware reset input too, is the model's choice (log 25, DESIGN CHOICE). -/
def Obligations.ResetCommandAndInputGiveResetState : Prop :=
  (∀ s : State, exec .reset s = .next (afterReset s)) ∧
  (∀ (s : State) (ts : List Turn), s.turns = .hardwareReset :: ts → step s = .next (afterReset s.afterTurn)) ∧
  (∀ (s : State) (off : Nat), off < 4096 → off % 4 = 0 →
    (afterReset s).memRead (Config.engineBase + off) 4 =
      .next (0#32, (afterReset s).record (.readValue (Config.engineBase + off) 0#32)))

/-! ## Encoding -/

/-- 30_encoding.md R83 on words of 95_test_vectors.md section 2.1. -/
def Obligations.SpecWordsDecode : Prop :=
  decode 0x00000401#32 = .ok (.create 4) ∧ decode 0x00002101#32 = .ok (.create 33) ∧
  decode 0x00000002#32 = .ok .goto ∧ decode 0x00003F03#32 = .ok (.compute 63) ∧
  decode 0x00000804#32 = .ok (.read 8) ∧ decode 0x00002805#32 = .ok (.readExact 40) ∧
  decode 0x02000006#32 = .ok (.xor 131072) ∧ decode 0x00000007#32 = .ok .reset ∧
  decode 0x00000000#32 = .error .opcode ∧ decode 0x00000014#32 = .error .reserved7to4 ∧
  decode 0x00004001#32 = .error .reserved31to14 ∧ decode 0x00000107#32 = .error .reserved31to4

/-- 30_encoding.md R83, R86: decoding the encoding of a well-formed command gives the command back. -/
def Obligations.DecodeOfEncodeIsTheInstruction : Prop :=
  ∀ i : Instr, i.WellFormed → decode (encode i) = .ok i

/-- 30_encoding.md R83, R86: a word that decodes is the encoding of what it decodes to, which is well-formed. -/
def Obligations.EncodeOfDecodeIsTheWord : Prop :=
  ∀ (v : Word) (i : Instr), decode v = .ok i → i.WellFormed ∧ encode i = v

/-- 30_encoding.md R82: a word selects the command of a row exactly when `(v & mask) = match`, and the operand is the
field of the row's format (R80, R81); a word that selects no row is ILLEGAL. -/
def Obligations.WordSelectsRowByMaskAndMatch : Prop :=
  ∀ v : Word,
    (∀ d, decode v = .ok (.create d) ↔
      v &&& 0xFFFFC0FF#32 = 0x00000001#32 ∧ d = (v.extractLsb' 8 6).toNat) ∧
    (decode v = .ok .goto ↔ v &&& 0xFFFFFFFF#32 = 0x00000002#32) ∧
    (∀ f, decode v = .ok (.compute f) ↔
      v &&& 0xFFFFC0FF#32 = 0x00000003#32 ∧ f = (v.extractLsb' 8 6).toNat) ∧
    (∀ n, decode v = .ok (.read n) ↔
      v &&& 0x000000FF#32 = 0x00000004#32 ∧ n = (v.extractLsb' 8 24).toNat) ∧
    (∀ n, decode v = .ok (.readExact n) ↔
      v &&& 0x000000FF#32 = 0x00000005#32 ∧ n = (v.extractLsb' 8 24).toNat) ∧
    (∀ n, decode v = .ok (.xor n) ↔
      v &&& 0x000000FF#32 = 0x00000006#32 ∧ n = (v.extractLsb' 8 24).toNat) ∧
    (decode v = .ok .reset ↔ v &&& 0xFFFFFFFF#32 = 0x00000007#32) ∧
    ((∃ e, decode v = .error e) ↔
      v &&& 0xFFFFC0FF#32 ≠ 0x00000001#32 ∧ v &&& 0xFFFFFFFF#32 ≠ 0x00000002#32 ∧
      v &&& 0xFFFFC0FF#32 ≠ 0x00000003#32 ∧ v &&& 0x000000FF#32 ≠ 0x00000004#32 ∧
      v &&& 0x000000FF#32 ≠ 0x00000005#32 ∧ v &&& 0x000000FF#32 ≠ 0x00000006#32 ∧
      v &&& 0xFFFFFFFF#32 ≠ 0x00000007#32)

/-- 30_encoding.md R84: which words decode to ILLEGAL. -/
def Obligations.IllegalWordsAreExactlyTheReservedOnes : Prop :=
  ∀ v : Word,
    (∃ e, decode v = .error e) ↔
      (v.extractLsb' 0 4 = 0x0#4 ∨ 0x8#4 ≤ v.extractLsb' 0 4 ∨ v.extractLsb' 4 4 ≠ 0#4 ∨
       ((v.extractLsb' 0 4 = 0x1#4 ∨ v.extractLsb' 0 4 = 0x3#4) ∧ v.extractLsb' 14 18 ≠ 0#18) ∨
       ((v.extractLsb' 0 4 = 0x2#4 ∨ v.extractLsb' 0 4 = 0x7#4) ∧ v.extractLsb' 4 28 ≠ 0#28))

/-! ## Lifecycle -/

/-- 42_control.md R172: on the engine's move, step at a state whose latched word decodes to `i` is exec of `i`, with
the turn taken off the list; the host's hook puts exactly such a word there. -/
def Obligations.StepRunsTheDecodedInstruction : Prop :=
  (∀ (s : State) (p : Pending) (i : Instr), s.engineMoves → s.busy = true → s.pend = some p →
    decode p.word = .ok i → i.WellFormed ∧ step s = exec i s.afterTurn) ∧
  (∀ (s : State) (w : Nat) (i : Instr), decodeTableWord 32 w = some i →
    step (s.withFetchWord 32 w) =
      exec i { s.issue (BitVec.ofNat 32 w) with rem := 0#24, cnt := 0#24 })

/-- 42_control.md R172: the order of the checks at dispatch: in FAULT every word but CREATE and RESET is ignored; then
ILLEGAL raises ILLEGAL_COMMAND; then a keystream command with no instance raises NOT_CONFIGURED; else the body runs. That
an ignored command leaves a recorded overrun and ERRCODE as they are is the model's reading (log 11, DEDUCED); that the
engine moves where no turn is listed is the model's choice (log 6). -/
def Obligations.DispatchOrdersItsChecks : Prop :=
  ∀ (s : State) (p : Pending), Inv s → s.engineMoves → s.busy = true → s.pend = some p →
    (s.st = .fault → (∀ d, decode p.word ≠ .ok (.create d)) → decode p.word ≠ .ok .reset →
      step s = .next (ignored s.afterTurn)) ∧
    (s.st ≠ .fault → (∀ i, decode p.word ≠ .ok i) → step s = .next (raised s.afterTurn .illegalCommand)) ∧
    (∀ i, decode p.word = .ok i → s.st = .unconfigured → NeedsInstance i →
      step s = .next (raised s.afterTurn .notConfigured)) ∧
    (∀ i, decode p.word = .ok i → step s = exec i s.afterTurn)

/-- 60_exceptions.md R182, 42_control.md R173: raising an error and finishing leave what the rules say. -/
def Obligations.RaiseAndFinishLeaveWhatTheRulesSay : Prop :=
  (∀ (s : State) (e : ErrorCode), s.raise e = raised s e) ∧ (∀ s : State, s.finish = finished s)

/-- 60_exceptions.md R196: an engine that is not busy takes no step. -/
def Obligations.IdleEngineChangesNothing : Prop :=
  ∀ s : State, s.engineMoves → s.busy = false → step s = .next s.afterTurn

/-- 60_exceptions.md R181, R185: with no instance the keystream commands raise NOT_CONFIGURED, whatever their length;
in FAULT they finish with no effect, also on a recorded overrun, which is the model's reading (log 11, DEDUCED). -/
def Obligations.KeystreamCommandsNeedAnInstance : Prop :=
  ∀ (s : State) (p : Pending) (i : Instr), Inv s → s.pend = some p → NeedsInstance i →
    (s.st = .unconfigured → exec i s = .next (raised s .notConfigured)) ∧
    (s.st = .fault → exec i s = .next (ignored s))

/-- 60_exceptions.md R183: a step that raises an error (it enters FAULT, or replaces ERRCODE in FAULT) without an overrun
has changed nothing but STATE, ERRCODE and the in-flight state; no byte step raises an error; an OVERRUN is reported
only where one was recorded, by the step that completes the command (for a data command the step that moves its last
byte). -/
def Obligations.ErrorsArePrecise : Prop :=
  ∀ s t : State, step s = .next t → t.st = .fault → (s.st ≠ .fault ∨ t.err ≠ s.err) →
    ((t.err = .overrun ∧ s.ovr = true ∧ t.busy = false) ∨ (t.err ≠ .none ∧ t = raised s.afterTurn t.err)) ∧
    (Inv s → s.rem ≠ 0#24 → t.err = .overrun ∧ s.rem = 1#24)

/-- 60_exceptions.md R186: only a successful CREATE or a reset leaves FAULT; a CREATE that fails stays in FAULT with
CONFIG_ERROR. A reset is one by its cause, see `ResetStep` (log 10, log 25). -/
def Obligations.OnlyCreateOrResetLeavesFault : Prop :=
  (∀ s t : State, Inv s → s.st = .fault → step s = .next t → t.st ≠ .fault →
    ResetStep s t ∨ (t.st = .ready ∧ t.err = .none ∧ ∃ p d, CreateMoves s p d)) ∧
  (∀ (s : State) (p : Pending) (d : Nat), s.st = .fault → s.engineMoves → s.busy = true → s.pend = some p →
    decode p.word = .ok (.create d) → (d = 0 ∨ 33 ≤ d) →
    ∃ t, step s = .next t ∧ t.st = .fault ∧ t.err = .configError)

/-- 10_state.md R42: ERRCODE is written only by an error and cleared only by a successful CREATE or by reset. A reset is
one by its cause, see `ResetStep` (log 10, log 25). -/
def Obligations.ErrcodeChangesOnlyByErrorCreateOrReset : Prop :=
  ∀ s t : State, step s = .next t → t.err ≠ s.err →
    (t.st = .fault ∧ t.err ≠ .none) ∨
    (t.err = .none ∧ (ResetStep s t ∨ (t.st = .ready ∧ ∃ p d, CreateMoves s p d)))

/-- 10_state.md R22 (seed "immutable for the lifetime of a keystream instance"): seed and depth change only by a
successful CREATE, which takes the latched seed, or by a reset. A reset is one by its cause, see `ResetStep` (log 10,
log 25). -/
def Obligations.SeedAndDepthChangeOnlyByCreateOrReset : Prop :=
  ∀ s t : State, step s = .next t → (t.seed ≠ s.seed ∨ t.depth ≠ s.depth) →
    ResetStep s t ∨ (∃ p d, CreateMoves s p d ∧ t.seed = seedOfWords p.seedIn ∧ t.depth.val = d)

/-! ## Invariants -/

/-- 10_state.md R25, R26, R37, R41: every step keeps the invariants, from every state that has them. -/
def Obligations.StepKeepsTheInvariants : Prop :=
  ∀ s t : State, Inv s → step s = .next t → Inv t

/-- 10_state.md R25: after any steps from any state with the invariants, whenever the engine is not busy and READY or
EXHAUSTED, the levels below depth are the chain and the other slots are zero. -/
def Obligations.ChainIsRightWheneverTheEngineIsIdle : Prop :=
  ∀ (k : Nat) (s t : State), Inv s → runSteps k s = .next t → t.busy = false → HasInstance t →
    (∀ i, i < t.depth.val → t.nodes[i]? = some (chainval Config.hash t.seed t.path t.depth.val i)) ∧
    (∀ i, t.depth.val ≤ i → i < 32 → t.nodes[i]? = some zero32)

/-- 60_exceptions.md R196, 70_reset_and_hazards.md R228: from a state with the invariants the engine's move and a
reset always answer a next state, and any move stops only on a host access that the spec gives no meaning. -/
def Obligations.OnlyUndefinedHostAccessesStop : Prop :=
  ∀ s : State, Inv s →
    ((∀ ts, s.turns ≠ .host :: ts) → ∃ t, step s = .next t) ∧
    (∀ f, step s = .fault f → f = .outsideWindow) ∧
    (∀ r, step s = .refused r → r = .undefinedAccess)

/-- 60_exceptions.md R188, 70_reset_and_hazards.md R224: while the host keeps to one command at a time no overrun is
recorded, and none is reported. -/
def Obligations.NoOverrunUnderTheHostProtocol : Prop :=
  ∀ s t : State, s.ovr = false → s.hostKeepsProtocol → step s = .next t →
    t.ovr = false ∧ (t.err = .overrun → s.err = .overrun)

/-! ## CREATE, COMPUTE, GOTO -/

/-- 40_keystream.md R108: a legal CREATE builds the instance from the latched operands and empties the channels; every
other field stays. -/
def Obligations.CreateBuildsTheInstance : Prop :=
  ∀ (s : State) (p : Pending) (d : Nat), s.pend = some p → 1 ≤ d → d ≤ 32 →
    ∃ ns : Nodes,
      exec (.create d) s = .next (finished
        { s with
          seed := seedOfWords p.seedIn, depth := Fin.ofNat 33 d, path := p.argPath, nodes := ns, offset := 0
          st := .ready, err := .none, result := 0#32, ksOut := [], din := [], dout := []
          hashes := s.hashes + d }) ∧
      (∀ i, i < d → ns[i]? = some (chainval Config.hash (seedOfWords p.seedIn) p.argPath d i)) ∧
      (∀ i, d ≤ i → i < 32 → ns[i]? = some zero32)

/-- 40_keystream.md R108: a depth of 0 or above 32 raises CONFIG_ERROR in every state, and nothing else changes. -/
def Obligations.CreateOfBadDepthRaisesConfigError : Prop :=
  ∀ (s : State) (p : Pending) (d : Nat), s.pend = some p → (d = 0 ∨ 33 ≤ d) →
    exec (.create d) s = .next (raised s .configError)

/-- 40_keystream.md R101: `compute(f)` writes only levels `f` to `depth-1`, each from the value just written below it,
with `max(0, depth - f)` applications of H; on a chain that is right below `f` it leaves a right chain. -/
def Obligations.ComputeLoopWritesItsLevels : Prop :=
  ∀ (s : State) (f : Nat), ∃ ns : Nodes,
    s.compute f = { s with nodes := ns, hashes := s.hashes + (s.depth.val - f) } ∧
    (∀ i, (i < f ∨ s.depth.val ≤ i) → ns[i]? = s.nodes[i]?) ∧
    (∀ i prev, f ≤ i → i < s.depth.val → (i = 0 → prev = s.seed) → (i ≠ 0 → ns[i - 1]? = some prev) →
      ns[i]? = some (Config.hash (if s.path.getLsbD (s.depth.val - 1 - i) then rev prev else prev))) ∧
    ((∀ i, i < f → i < s.depth.val → s.levelRight i) →
      ∀ i, i < s.depth.val → ns[i]? = some (chainval Config.hash s.seed s.path s.depth.val i))

/-- 40_keystream.md R109: COMPUTE changes no register, node or channel value, whatever the level, and applies H
`max(0, depth - f)` times. -/
def Obligations.ComputeChangesNoValue : Prop :=
  ∀ (s : State) (f : Nat), Inv s → HasInstance s →
    exec (.compute f) s = .next (finished { s with hashes := s.hashes + (s.depth.val - f) })

/-- 40_keystream.md R103, R110: GOTO moves to the latched path with offset 0, keeps the levels below the divergence
level, and the chain is right for the new path. -/
def Obligations.GotoMovesWithPrefixReuse : Prop :=
  ∀ (s : State) (p : Pending), Inv s → HasInstance s → s.pend = some p →
    ∃ ns : Nodes,
      exec .goto s = .next (finished
        { s with
          path := p.argPath, nodes := ns, offset := 0, st := .ready
          hashes := s.hashes + (s.depth.val - divergence s.path p.argPath s.depth.val) }) ∧
      (∀ i, i < divergence s.path p.argPath s.depth.val → ns[i]? = s.nodes[i]?) ∧
      (∀ i, i < s.depth.val → ns[i]? = some (chainval Config.hash s.seed p.argPath s.depth.val i)) ∧
      (∀ i, s.depth.val ≤ i → ns[i]? = s.nodes[i]?)

/-- 40_keystream.md R113: the node chain after a GOTO is the one a CREATE at the new path with the same seed and depth
computes. -/
def Obligations.GotoChainEqualsFreshInstance : Prop :=
  ∀ (s t s' t' : State) (p p' : Pending), Inv s → HasInstance s → s.pend = some p → s'.pend = some p' →
    p'.argPath = p.argPath → seedOfWords p'.seedIn = s.seed →
    exec .goto s = .next t → exec (.create s.depth.val) s' = .next t' → t.nodes = t'.nodes

/-- 40_keystream.md R102, 00_scope.md R11: the divergence level is `max(0, lo32(agree) - (32 - depth))`, where lo32
counts the one bits from bit 31 down to the first zero; it is 0..depth, 0 where the paths differ at or above depth, and
else the first level whose decision bits differ. -/
def Obligations.DivergenceIsTheFirstDifferingLevel : Prop :=
  (∀ x : Word, lo32 x ≤ 32 ∧ (∀ k, 32 - lo32 x ≤ k → k < 32 → x.getLsbD k = true) ∧
    (lo32 x < 32 → x.getLsbD (31 - lo32 x) = false)) ∧
  lo32 0xFFFFFFFF#32 = 32 ∧ (∀ x : Word, x.getLsbD 31 = false → lo32 x = 0) ∧
  ∀ (old new : Word) (d : Nat), 1 ≤ d → d ≤ 32 →
    ~~~(old ^^^ new) = (old &&& new) ||| (~~~old &&& ~~~new) ∧
    ((divergence old new d : Int) = max 0 ((lo32 (~~~(old ^^^ new)) : Int) - (32 - d))) ∧
    divergence old new d ≤ d ∧
    ((∃ k, d ≤ k ∧ k < 32 ∧ old.getLsbD k ≠ new.getLsbD k) →
      lo32 (~~~(old ^^^ new)) < 32 - d ∧ divergence old new d = 0) ∧
    ((∀ k, d ≤ k → k < 32 → old.getLsbD k = new.getLsbD k) →
      (∀ i, i < divergence old new d → old.getLsbD (d - 1 - i) = new.getLsbD (d - 1 - i)) ∧
      (divergence old new d < d →
        old.getLsbD (d - 1 - divergence old new d) ≠ new.getLsbD (d - 1 - divergence old new d)))

/-- 40_keystream.md R115: a sequential advance has `n = depth - 1 - t`, with `t` the trailing one bits of the path, and
so recomputes `t + 1` levels: all of them only from leaf `2^(depth-1) - 1`. -/
def Obligations.SequentialAdvanceCost : Prop :=
  ∀ (p : Word) (d : Nat), 1 ≤ d → d ≤ 32 → p &&& maskOf d ≠ maskOf d →
    trailingOnes p < d ∧ divergence p (p + 1#32) d = d - 1 - trailingOnes p ∧
    d - divergence p (p + 1#32) d = trailingOnes p + 1 ∧
    (d - divergence p (p + 1#32) d = d ↔ p &&& maskOf d = maskOf (d - 1))

/-- 10_state.md R24: the mask is `2^depth - 1`, and the leaf index of a path is its low `depth` bits. -/
def Obligations.MaskSelectsTheLeafIndex : Prop :=
  ∀ (p : Word) (d : Nat), d ≤ 32 →
    (maskOf d).toNat = 2 ^ d - 1 ∧ (p &&& maskOf d).toNat = p.toNat % 2 ^ d

/-! ## READ, READ_EXACT, XOR: the first step -/

/-- 40_keystream.md R111, R112, 41_cipher.md R150: a data command of length 0 returns 0 and changes nothing else, also
in EXHAUSTED. -/
def Obligations.ZeroLengthDataCommandsReturnZero : Prop :=
  ∀ (s : State) (i : Instr), Inv s → HasInstance s → s.rem = 0#24 →
    (i = .read 0 ∨ i = .readExact 0 ∨ i = .xor 0) →
    exec i s = .next (finished { s with result := 0#32 })

/-- 40_keystream.md R111: READ starts to move at most the rest of the current leaf. -/
def Obligations.ReadStartsWithinTheLeaf : Prop :=
  ∀ (s : State) (n : Nat), Inv s → s.st = .ready → s.rem = 0#24 → 1 ≤ n →
    exec (.read n) s = .next { s with rem := BitVec.ofNat 24 (min n (32 - s.offset.val)), cnt := 0#24 } ∧
    1 ≤ min n (32 - s.offset.val) ∧ min n (32 - s.offset.val) ≤ 32

/-- 40_keystream.md R112, 41_cipher.md R150: READ_EXACT and XOR of a satisfiable length that a word can carry (log 26)
start to move that many bytes. -/
def Obligations.ExactPullStarts : Prop :=
  ∀ (s : State) (n : Nat) (i : Instr), Inv s → s.st = .ready → s.rem = 0#24 → 1 ≤ n → n < 2 ^ 24 → n ≤ s.avail →
    (i = .readExact n ∨ i = .xor n) →
    exec i s = .next { s with rem := BitVec.ofNat 24 n, cnt := 0#24 } ∧ (BitVec.ofNat 24 n).toNat = n

/-- 60_exceptions.md R181: READ in EXHAUSTED, and READ_EXACT or XOR of more than avail() bytes, raise CAPACITY_ERROR
before any byte moves. -/
def Obligations.UnsatisfiablePullsRaiseCapacityError : Prop :=
  ∀ (s : State) (n : Nat) (i : Instr), Inv s → HasInstance s → s.rem = 0#24 → 1 ≤ n →
    ((i = .read n ∧ s.st = .exhausted) ∨ ((i = .readExact n ∨ i = .xor n) ∧ s.avail < n)) →
    exec i s = .next (raised s .capacityError)

/-- 40_keystream.md R104: avail() is 0 in EXHAUSTED and else `(mask - (path & mask)) * 32 + (32 - offset)`; in READY it
is 1 to 2^37. -/
def Obligations.AvailIsBounded : Prop :=
  ∀ s : State,
    (s.st = .exhausted → s.avail = 0) ∧
    (s.st ≠ .exhausted → s.avail = (s.mask.toNat - (s.path &&& s.mask).toNat) * 32 + (32 - s.offset.val)) ∧
    (Inv s → s.st = .ready → 1 ≤ s.avail ∧ s.avail ≤ 2 ^ 37)

/-! ## READ, READ_EXACT, XOR: the byte steps -/

/-- 40_keystream.md R105, R106: with bytes left to move and room in KS_OUT, READ and READ_EXACT deliver the byte under
the cursor and advance it; DIN, DOUT and the host's side stay. While KS_OUT is full they hold. -/
def Obligations.KeystreamByteStepDeliversAndAdvances : Prop :=
  ∀ (s : State) (n : Nat) (i : Instr), Inv s → s.rem ≠ 0#24 → (i = .read n ∨ i = .readExact n) →
    (s.ksOut.length < Config.fifoDepth →
      ∃ (t : State) (k : Byte),
        exec i s = .next t ∧ cursorByte s = some k ∧ t.ksOut = s.ksOut ++ [k] ∧ t.din = s.din ∧ t.dout = s.dout ∧
        CursorMoved s t ∧ ByteCounted s t ((s.cnt + 1#24).setWidth 32) ∧ HostSideSame s t) ∧
    (s.ksOut.length = Config.fifoDepth → exec i s = .next s)

/-- 41_cipher.md R150: with bytes left to move, a byte in DIN and room in DOUT, XOR takes the oldest DIN byte, emits
its XOR with the byte under the cursor and advances; KS_OUT and the host's side stay. While DIN is empty or DOUT is
full it holds (70_reset_and_hazards.md R228). -/
def Obligations.XorByteStepCombinesAndAdvances : Prop :=
  ∀ (s : State) (n : Nat), Inv s → s.rem ≠ 0#24 →
    (∀ x rest, s.din = x :: rest → s.dout.length < Config.fifoDepth →
      ∃ (t : State) (k : Byte),
        exec (.xor n) s = .next t ∧ cursorByte s = some k ∧ t.din = rest ∧ t.dout = s.dout ++ [x ^^^ k] ∧
        t.ksOut = s.ksOut ∧ CursorMoved s t ∧ ByteCounted s t (BitVec.ofNat 32 n) ∧ HostSideSame s t) ∧
    ((s.din = [] ∨ s.dout.length = Config.fifoDepth) → exec (.xor n) s = .next s)

/-- 40_keystream.md R115, 70_reset_and_hazards.md R230: a byte step of READ, READ_EXACT or XOR applies H only at a leaf
advance, and there `t + 1` times, with `t` the trailing one bits of the path before it. -/
def Obligations.ByteStepHashCost : Prop :=
  ∀ (s : State) (n : Nat) (i : Instr), Inv s → s.rem ≠ 0#24 →
    (((i = .read n ∨ i = .readExact n) ∧ s.ksOut.length < Config.fifoDepth) ∨
      (i = .xor n ∧ s.din ≠ [] ∧ s.dout.length < Config.fifoDepth)) →
    ∃ t, exec i s = .next t ∧
      t.hashes = s.hashes +
        (if s.offset.val = 31 ∧ s.path &&& s.mask ≠ s.mask then trailingOnes s.path + 1 else 0)

/-! ## Whole commands

The host serves the channels while the command runs, so that these hold for every FIFO_DEPTH (00_scope.md R6) and every
length. -/

/-- 40_keystream.md R107, R112, 30_encoding.md R87: `PULL n` of `n` available bytes delivers exactly the next `n`
keystream bytes, whatever FIFO_DEPTH is. -/
def Obligations.PullDeliversExactlyItsBytes : Prop :=
  ∀ (s : State) (n : Nat) (rest : List HostOp) (ts : List Turn), CanServe s → n < 2 ^ 24 → n ≤ s.avail →
    s.script = pull n ++ rest → s.turns = pullTurns n ++ ts →
    ∃ t, runSteps (2 * n + 3) s = .next t ∧ t.script = rest ∧ t.turns = ts ∧
      keysPopped t.log = keysPopped s.log ++ keystreamFrom s n ∧ MoveDone s t n

/-- 40_keystream.md R111, R107: a READ of `n ≥ 1` bytes moves `min(n, 32 - offset)` of them, never across the end of
the leaf. -/
def Obligations.ReadDeliversUpToTheLeafEnd : Prop :=
  ∀ (s : State) (n m : Nat) (rest : List HostOp) (ts : List Turn), ReadyToServe s → 1 ≤ n → n < 2 ^ 24 →
    m = min n (32 - s.offset.val) →
    s.script = readServed n m ++ rest → s.turns = pullTurns m ++ ts →
    ∃ t, runSteps (2 * m + 3) s = .next t ∧ t.script = rest ∧ t.turns = ts ∧
      keysPopped t.log = keysPopped s.log ++ keystreamFrom s m ∧ MoveDone s t m

/-- 41_cipher.md R150, R153, 40_keystream.md R107: one pass of the host loop over a chunk of available length: output
byte `j` is input byte `j` XOR keystream byte `j`, whatever FIFO_DEPTH is. -/
def Obligations.XorPassCombinesInputWithKeystream : Prop :=
  ∀ (s : State) (input : List Byte) (rest : List HostOp) (ts : List Turn), CanServe s →
    input.length < 2 ^ 24 → input.length ≤ s.avail →
    s.script = chunkPassOverlapped input ++ rest → s.turns = passTurns input.length ++ ts →
    ∃ t, runSteps (3 * input.length + 4) s = .next t ∧ t.script = rest ∧ t.turns = ts ∧
      outputPopped t.log = outputPopped s.log ++ List.zipWith (· ^^^ ·) input (keystreamFrom s input.length) ∧
      MoveDone s t input.length

/-- 41_cipher.md R151: the chunk loop over P after a CREATE runs to its end, and the loop over its output after a second
CREATE with the same operands, on any two engines that are not busy and with any two chunk sizes an XOR can carry, gives
P back, for every P that the instance can serve. -/
def Obligations.XorIsItsOwnInverse : Prop :=
  ∀ (s s' : State) (d : Nat) (p : Word) (x : B32) (P : List Byte) (chunk chunk' : Nat), 1 ≤ d → d ≤ 32 →
    1 ≤ chunk → chunk < 2 ^ 24 → 1 ≤ chunk' → chunk' < 2 ^ 24 →
    P.length ≤ ((maskOf d).toNat - (p &&& maskOf d).toNat + 1) * 32 →
    s.busy = false → s'.busy = false → s.log = [] → s'.log = [] →
    ∃ t t' : State,
      runAll s (createP d p x ++ loopOver chunk P) (createTurns ++ loopTurns chunk P.length) = .next t ∧
      (outputPopped t.log).length = P.length ∧
      runAll s' (createP d p x ++ loopOver chunk' (outputPopped t.log)) (createTurns ++ loopTurns chunk' P.length) =
        .next t' ∧
      outputPopped t'.log = P

/-- 40_keystream.md R114: any sequence of successful READ and READ_EXACT commands that moves `T` bytes delivers the next
`T` keystream bytes and leaves the same position as a single READ_EXACT of `T`. -/
def Obligations.SplitPullsEqualOnePull : Prop :=
  ∀ (s : State) (cs : List (Instr × Nat)) (T : Nat), CanServe s → ArePulls s 0 cs → T = (cs.map Prod.snd).sum →
    T < 2 ^ 24 →
    ∃ t u : State,
      runAll s (cs.flatMap fun c => pullServed c.1 c.2) (cs.flatMap fun c => pullTurns c.2) = .next t ∧
      runAll s (pull T) (pullTurns T) = .next u ∧
      keysPopped t.log = keysPopped s.log ++ keystreamFrom s T ∧ keysPopped u.log = keysPopped t.log ∧
      SamePosition t u

/-- 41_cipher.md R152: the output depends only on the input and the position, not on how the input is cut into XOR
commands: any two cuts, empty chunks among them, of an input that the instance can serve output input byte `j` XOR
keystream byte `j` and leave the same position. -/
def Obligations.SplitXorsEqualOneXor : Prop :=
  ∀ (s : State) (cs ds : List (List Byte)), CanServe s → cs.flatten = ds.flatten →
    (∀ c ∈ cs, c.length < 2 ^ 24) → (∀ c ∈ ds, c.length < 2 ^ 24) → cs.flatten.length ≤ s.avail →
    ∃ t u : State,
      runAll s (cs.flatMap chunkPassOverlapped) (cs.flatMap fun c => passTurns c.length) = .next t ∧
      runAll s (ds.flatMap chunkPassOverlapped) (ds.flatMap fun c => passTurns c.length) = .next u ∧
      outputPopped t.log =
        outputPopped s.log ++ List.zipWith (· ^^^ ·) cs.flatten (keystreamFrom s cs.flatten.length) ∧
      outputPopped u.log = outputPopped t.log ∧ SamePosition t u

/-- 41_cipher.md R153, R152, 70_reset_and_hazards.md R223: the host's cipher loop, at the first byte of leaf 0, over
any input that the capacity check admits, with any chunk size an XOR can carry, runs to its end, and output byte `j` is
input byte `j` XOR keystream byte `j`. -/
def Obligations.CipherLoopProcessesTheWholeInput : Prop :=
  ∀ (s : State) (chunk : Nat) (input : List Byte), ReadyToServe s → s.path &&& s.mask = 0#32 → s.offset.val = 0 →
    1 ≤ chunk → chunk < 2 ^ 24 → input.length ≤ (2 ^ s.depth.val - 1) * 32 →
    ∃ t : State,
      runAll s (cipherRun chunkPassOverlapped chunk input)
        (List.replicate 3 .host ++ loopTurns chunk input.length) = .next t ∧
      t.script = [] ∧
      outputPopped t.log =
        outputPopped s.log ++ List.zipWith (· ^^^ ·) input (keystreamFrom s input.length) ∧
      t.st = .ready ∧ t.err = s.err

/-- 41_cipher.md R155, R150: an error in the engine ends the run. The chunk loop over more than the instance can deliver
stops in FAULT with CAPACITY_ERROR at the first XOR that cannot be satisfied, with what is left of the program dropped
(log 20), and the output holds exactly the chunks completed before it. The host notices the failure while it waits for a
byte (log 27). The same for a pass that pushes the whole chunk first: DIN still holds the chunk. -/
def Obligations.FailedRunKeepsWholeChunks : Prop :=
  ∀ (s : State) (rest : List HostOp), CanServe s →
    (∀ (chunk : Nat) (input : List Byte), 1 ≤ chunk → chunk < 2 ^ 24 → s.avail < input.length →
      ∃ t : State,
        runAll s (loopOver chunk input ++ rest)
          ((List.replicate (s.avail / chunk) (passTurns chunk)).flatten ++ [.host, .engine, .host, .host]) = .next t ∧
        t.script = [] ∧ t.st = .fault ∧ t.err = .capacityError ∧ t.busy = false ∧
        outputPopped t.log = outputPopped s.log ++
          List.zipWith (· ^^^ ·) (input.take (s.avail / chunk * chunk)) (keystreamFrom s (s.avail / chunk * chunk))) ∧
    (∀ r : List Byte, r.length < 2 ^ 24 → s.avail < r.length → r.length ≤ Config.fifoDepth →
      ∃ t : State,
        runAll s (chunkPass r ++ rest) (List.replicate r.length .host ++ [.host, .engine, .host]) = .next t ∧
        t.script = [] ∧ t.st = .fault ∧ t.err = .capacityError ∧ t.busy = false ∧ t.din = r ∧
        outputPopped t.log = outputPopped s.log)

/-! ## The register window and the host -/

/-- 42_control.md R171, 60_exceptions.md R188, 70_reset_and_hazards.md R224: a write to CMD issues while not busy, is
discarded and recorded as an overrun while busy. -/
def Obligations.CmdWriteIssuesOrOverruns : Prop :=
  ∀ (s : State) (v : Word),
    (s.busy = false →
      s.memWrite (Config.engineBase + 0x000) 4 v =
        .next { s with
          pend := some { word := v, argPath := s.argPath, seedIn := s.seedIn }, busy := true, ovr := false }) ∧
    (s.busy = true → v ≠ 0x00000007#32 →
      s.memWrite (Config.engineBase + 0x000) 4 v = .next { s with ovr := true })

/-- The model's reading of 42_control.md R170 and 60_exceptions.md R188 (assumption log 10, DEDUCED): RESET written
while busy takes effect at the write. -/
def Obligations.ResetWrittenWhileBusyTakesEffect : Prop :=
  ∀ s : State, s.busy = true →
    s.memWrite (Config.engineBase + 0x000) 4 0x00000007#32 = .next (afterReset s)

/-- 20_memory.md R67: a write to ARG_PATH or SEED_INk stores the value; every other write but that to CMD is
ignored. -/
def Obligations.WritesStoreOrAreIgnored : Prop :=
  ∀ (s : State) (v : Word),
    s.memWrite (Config.engineBase + 0x008) 4 v = .next { s with argPath := v } ∧
    (∀ k : Fin 8,
      s.memWrite (Config.engineBase + (0x040 + 4 * k.val)) 4 v = .next { s with seedIn := s.seedIn.set k.val v }) ∧
    (∀ off, off < 4096 → off % 4 = 0 → off ≠ 0x000 → off ≠ 0x008 → (off < 0x040 ∨ 0x060 ≤ off) →
      s.memWrite (Config.engineBase + off) 4 v = .next s)

/-- 10_state.md R28 to R40: what each register reads as while the engine is not busy; the read is recorded by the host
and changes nothing else (20_memory.md R67). -/
def Obligations.RegistersReadAsSpecified : Prop :=
  ∀ (s : State) (off : Nat), s.busy = false → off < 4096 → off % 4 = 0 →
    ∃ v : Word,
      s.memRead (Config.engineBase + off) 4 =
        .next (v, { s with log := .readValue (Config.engineBase + off) v :: s.log }) ∧
      (off = 0x004 → StatusReads s v) ∧
      (off = 0x008 → v = s.argPath) ∧
      (off = 0x00C → v.extractLsb' 0 24 = s.result.extractLsb' 0 24 ∧ v.extractLsb' 24 8 = 0#8) ∧
      (off = 0x010 → v.toNat = s.depth.val) ∧
      (off = 0x014 → v = s.path) ∧
      (off = 0x018 → v.toNat = s.offset.val) ∧
      (off = 0x01C → v.toNat = 2 ^ s.depth.val - 1) ∧
      (off = 0x020 → v.toNat = (2 ^ s.depth.val - 1) * 32 % 2 ^ 32) ∧
      (off = 0x024 → v.toNat = (2 ^ s.depth.val - 1) * 32 / 2 ^ 32 ∧ v.toNat ≤ 0x1F) ∧
      (∀ (i : Fin 32) (q : Fin 8) (j : Fin 4), off = 0x400 + 32 * i.val + 4 * q.val →
        (s.nodes[i.val])[4 * q.val + j.val]? = some (v.extractLsb' (8 * j.val) 8)) ∧
      ((off = 0x000 ∨ (0x028 ≤ off ∧ off < 0x400) ∨ 0x800 ≤ off) → v = 0#32)

/-- 70_reset_and_hazards.md R225: while busy, STATUS.BUSY, ARG_PATH and the always-zero reads are exact. -/
def Obligations.BusyReadsExactWhereTheSpecSaysSo : Prop :=
  ∀ (s : State) (off : Nat), s.busy = true → off < 4096 → off % 4 = 0 →
    ∃ (v : Word) (t : State),
      s.memRead (Config.engineBase + off) 4 = .next (v, t) ∧
      t = { s with draws := t.draws, log := .readValue (Config.engineBase + off) v :: s.log } ∧
      (off = 0x004 → v.getLsbD 2 = true ∧ v.getLsbD 3 = false ∧ v.extractLsb' 8 24 = 0#24) ∧
      (off = 0x008 → v = s.argPath) ∧
      ((off = 0x000 ∨ (0x028 ≤ off ∧ off < 0x400) ∨ 0x800 ≤ off) → v = 0#32)

/-- 20_memory.md R65: an access of another width or alignment is refused. -/
def Obligations.UnalignedOrNarrowAccessesAreRefused : Prop :=
  ∀ (s : State) (addr width : Nat) (v : Word),
    Config.engineBase ≤ addr → addr < Config.engineBase + 4096 → (width ≠ 4 ∨ addr % 4 ≠ 0) →
    s.memRead addr width = .refused .undefinedAccess ∧ s.memWrite addr width v = .refused .undefinedAccess

/-- 70_reset_and_hazards.md R226: a write to ARG_PATH or SEED_INk after the CMD write never affects the command that
write issued, even while it runs: the command's steps are the same and the written values stay (RESET clears them); the
next CMD write latches them. -/
def Obligations.RunningCommandIgnoresLaterOperandWrites : Prop :=
  (∀ (s : State) (p : Pending) (a : Word) (w : Vector Word 8), s.busy = true → s.pend = some p →
    (∀ t, decode p.word ≠ .ok .reset → engineStep s = .next t →
      engineStep { s with argPath := a, seedIn := w } = .next { t with argPath := a, seedIn := w }) ∧
    (decode p.word = .ok .reset → engineStep { s with argPath := a, seedIn := w } = engineStep s)) ∧
  (∀ (s : State) (a : Word) (w : Vector Word 8) (v : Word), s.busy = false →
    ∃ u, State.memWrite { s with argPath := a, seedIn := w } (Config.engineBase + 0x000) 4 v = .next u ∧
      u.pend = some { word := v, argPath := a, seedIn := w })

/-- 10_state.md R38: what the host sees in one of its moves does not depend on the seed or on SEED_IN. -/
def Obligations.SeedCannotBeReadBack : Prop :=
  ∀ (s t t' : State) (x : B32) (w : Vector Word 8),
    hostStep s = .next t → hostStep { s with seed := x, seedIn := w } = .next t' →
    t'.log = t.log ∧ t'.script = t.script

/-- 60_exceptions.md R195: the window shows every value of the keystream instance but the seed. -/
def Obligations.WindowShowsTheInstance : Prop :=
  ∀ s t : State, s.busy = false → t.busy = false → (∀ r : Reg, (s.readReg r).1 = (t.readReg r).1) →
    s.depth = t.depth ∧ s.path = t.path ∧ s.offset = t.offset ∧ s.nodes = t.nodes ∧ s.st = t.st ∧ s.err = t.err

/-- 10_state.md R38, 20_memory.md R63, 30_encoding.md R87: byte `4k+j` of the seed is `SEED_INk[8j+7:8j]`, and the
words SETSEED writes assemble to the seed it was given. -/
def Obligations.SeedPackingIsLittleEndian : Prop :=
  (∀ (w : Vector Word 8) (k : Fin 8) (j : Fin 4),
    (seedOfWords w)[4 * k.val + j.val]? = some ((w[k.val]).extractLsb' (8 * j.val) 8)) ∧
  (∀ x : B32, seedOfWords (wordsOfSeed x) = x)

/-- 30_encoding.md R87: the eight writes of SETSEED leave the seed's words in SEED_IN and change no other engine
state. -/
def Obligations.SetSeedStoresTheSeed : Prop :=
  ∀ (s : State) (x : B32) (rest : List HostOp), s.script = setSeed x ++ rest → s.turns = List.replicate 8 .host →
    runSteps 8 s = .next { s with seedIn := wordsOfSeed x, script := rest, turns := [] }

/-- 70_reset_and_hazards.md R222, 30_encoding.md R87: CREATEP in an engine that is not busy, the host doing its eleven
operations and the engine one step before the WAIT, leaves a READY instance with the seed, path and depth it names. -/
def Obligations.BootSequenceCreatesAnInstance : Prop :=
  ∀ (s : State) (d : Nat) (p : Word) (x : B32) (rest : List HostOp), 1 ≤ d → d ≤ 32 → s.busy = false →
    s.script = createP d p x ++ rest → s.turns = createTurns →
    ∃ t, runSteps 12 s = .next t ∧ t.st = .ready ∧ t.err = .none ∧ t.busy = false ∧ t.seed = x ∧ t.path = p ∧
      t.depth.val = d ∧ t.offset.val = 0 ∧ t.script = rest ∧ t.ksOut = [] ∧ t.din = [] ∧ t.dout = [] ∧
      (∀ i, i < d → t.nodes[i]? = some (chainval Config.hash x p d i))

/-- 10_state.md R37, 20_memory.md R71: a push appends to DIN when it holds fewer than FIFO_DEPTH bytes, a pop takes
the oldest byte of KS_OUT or DOUT, those of the chunk loop too; a push into a full DIN and a pop from an empty channel
wait (log 7). -/
def Obligations.ChannelsAreBoundedFifos : Prop :=
  ∀ (s : State) (b : Byte) (rest : List HostOp) (q : List Byte),
    (s.script = .push b :: rest → s.din.length < Config.fifoDepth →
      hostStep s = .next { s with din := s.din ++ [b], script := rest }) ∧
    (s.script = .push b :: rest → s.din.length = Config.fifoDepth → hostStep s = .next s) ∧
    (s.script = .popKs :: rest → s.ksOut = b :: q →
      hostStep s = .next { s with ksOut := q, script := rest, log := .poppedKs b :: s.log }) ∧
    (s.script = .popKs :: rest → s.ksOut = [] → hostStep s = .next s) ∧
    (s.script = .popDout :: rest → s.dout = b :: q →
      hostStep s = .next { s with dout := q, script := rest, log := .poppedDout b :: s.log }) ∧
    (s.script = .popDout :: rest → s.dout = [] → hostStep s = .next s) ∧
    (s.script = .pushOrStop b :: rest → s.din.length < Config.fifoDepth →
      hostStep s = .next { s with din := s.din ++ [b], script := rest }) ∧
    (s.script = .popDoutOrStop :: rest → s.dout = b :: q →
      hostStep s = .next { s with dout := q, script := rest, log := .poppedDout b :: s.log })

/-- 30_encoding.md R87: WAIT goes on exactly when BUSY reads 0; CHECK stops the program exactly when STATE is FAULT. The
chunk loop, while it can neither push nor pop, stops exactly when the command has ended in FAULT, and else waits
(41_cipher.md R155; log 27). Stopping drops the rest of the program (log 20). -/
def Obligations.WaitAndCheckFollowStatus : Prop :=
  ∀ (s : State) (b : Byte) (rest : List HostOp),
    (s.script = .wait :: rest →
      ∃ t, hostStep s = .next t ∧ t.script = (if s.busy then s.script else rest)) ∧
    (s.script = .check :: rest → s.busy = false →
      ∃ t, hostStep s = .next t ∧ t.script = (if s.st = .fault then [] else rest)) ∧
    ((s.script = .popDoutOrStop :: rest ∧ s.dout = []) ∨
        (s.script = .pushOrStop b :: rest ∧ s.din.length = Config.fifoDepth) →
      ∃ t, hostStep s = .next t ∧ t.script = (if s.busy = false ∧ s.st = .fault then [] else s.script) ∧
        t = { s with script := t.script, log := t.log, draws := t.draws })

/-- 70_reset_and_hazards.md R223: the host's capacity check goes on exactly when the input is at most LAST_BYTE long;
then, at leaf 0 and offset 0, no pull of the run can exceed what the instance can deliver. For another initial path the
bound is `(mask - (p0 & mask) + 1) * 32`, which is what the instance can deliver from offset 0. That a refused input ends
the host's program by dropping its rest is the model's choice (log 20, DESIGN CHOICE). -/
def Obligations.CapacityCheckAdmitsOnlyWhatFits : Prop :=
  ∀ (s : State) (len : Nat) (rest : List HostOp), Inv s → s.st = .ready → s.busy = false →
    (s.script = capacityCheck len ++ rest → s.turns = List.replicate 3 .host →
      ∃ t, runSteps 3 s = .next t ∧
        t.script = (if len ≤ (2 ^ s.depth.val - 1) * 32 then rest else []) ∧
        (s.path &&& s.mask = 0#32 → s.offset.val = 0 →
          s.avail = 2 ^ s.depth.val * 32 ∧ (2 ^ s.depth.val - 1) * 32 < s.avail)) ∧
    (∀ p0, s.script = capacityCheckFrom p0 len ++ rest → s.turns = List.replicate 2 .host →
      ∃ t, runSteps 2 s = .next t ∧
        t.script = (if len ≤ (s.mask.toNat - (p0 &&& s.mask).toNat + 1) * 32 then rest else []) ∧
        (s.path = p0 → s.offset.val = 0 → s.avail = (s.mask.toNat - (p0 &&& s.mask).toNat + 1) * 32))
end

