-- ==== Sys2Proof/Laws/Chain.lean ====
section
/-! SUPPORT. What the chain functions of Machine/Chain.lean can do: the chain value depends only on some path bits
(40_keystream.md R100), the loop of `compute` builds the chain (R101), the divergence level counts agreeing bits
(R102), and the leaf advance (R105, R115). -/

namespace Sys2Proof.Machine

theorem chainval_zero (H : B32 → B32) (s : B32) (p : Word) (d : Nat) :
    chainval H s p d 0 = H (childInput (decisionBit p d 0) s) := rfl

theorem chainval_succ (H : B32 → B32) (s : B32) (p : Word) (d i : Nat) :
    chainval H s p d (i + 1) = H (childInput (decisionBit p d (i + 1)) (chainval H s p d i)) := rfl

/-- `chainval(s, p, d, i)` depends only on bits `d-1` down to `d-1-i` of the path (40_keystream.md R100). -/
theorem chainval_congr (H : B32 → B32) (s : B32) (p q : Word) (d i : Nat)
    (h : ∀ k, d - 1 - i ≤ k → k ≤ d - 1 → p.getLsbD k = q.getLsbD k) :
    chainval H s p d i = chainval H s q d i := by
  induction i with
  | zero => simp only [chainval_zero, decisionBit, h (d - 1 - 0) (le_refl _) (by omega)]
  | succ i ih =>
    have hb : decisionBit p d (i + 1) = decisionBit q d (i + 1) := h _ (le_refl _) (by omega)
    rw [chainval_succ, chainval_succ, hb, ih fun k hk => h k (by omega)]

/-- The loop leaves every level below its start and every level from its end on as it was. -/
theorem computeLevels_outside (H : B32 → B32) (s : B32) (p : Word) (d k i j : Nat) (ns : Nodes)
    (h : j < i ∨ i + k ≤ j) : (computeLevels H s p d k i ns)[j]? = ns[j]? := by
  induction k generalizing i ns with
  | zero => rfl
  | succ k ih =>
    rw [computeLevels, ih _ _ (by omega), Vector.getElem?_setIfInBounds_ne (by omega)]

/-- The loop builds the chain from a chain that is right below its start (40_keystream.md R101). -/
theorem computeLevels_chain (H : B32 → B32) (s : B32) (p : Word) (d k i : Nat) (ns : Nodes)
    (hk : i + k ≤ 32) (h : ∀ j, j < i → ns[j]? = some (chainval H s p d j)) :
    ∀ j, j < i + k → (computeLevels H s p d k i ns)[j]? = some (chainval H s p d j) := by
  induction k generalizing i ns with
  | zero => intro j hj; exact h j (by omega)
  | succ k ih =>
    intro j hj
    rw [computeLevels]
    refine ih (i + 1) _ (by omega) (fun m hm => ?_) j (by omega)
    by_cases hmi : m = i
    · subst hmi
      rw [Vector.getElem?_setIfInBounds_self_of_lt (by omega)]
      cases m with
      | zero => simp [chainval_zero, prevValue]
      | succ m => simp [chainval_succ, prevValue, h m (by omega)]
    · rw [Vector.getElem?_setIfInBounds_ne (by omega), h m (by omega)]

theorem leadingOnes_le (x : Word) (k : Nat) : leadingOnes x k ≤ k := by
  induction k with
  | zero => simp [leadingOnes]
  | succ k ih => rw [leadingOnes]; split <;> omega

/-- The counted bits are one. -/
theorem leadingOnes_bit (x : Word) (k j : Nat) (hj : k - leadingOnes x k ≤ j) (hk : j < k) :
    x.getLsbD j = true := by
  induction k with
  | zero => omega
  | succ k ih =>
    rw [leadingOnes] at hj
    split at hj
    · rename_i hb
      by_cases h : j = k
      · exact h ▸ hb
      · exact ih (by omega) (by omega)
    · omega

/-- At least `n` ones from bit `k - 1` down are counted. -/
theorem le_leadingOnes (x : Word) (k n : Nat) (hn : n ≤ k) (h : ∀ j, k - n ≤ j → j < k → x.getLsbD j = true) :
    n ≤ leadingOnes x k := by
  induction k generalizing n with
  | zero => omega
  | succ k ih =>
    cases n with
    | zero => omega
    | succ n =>
      have hb := h k (by omega) (by omega)
      have := ih n (by omega) fun j h1 h2 => h j (by omega) (by omega)
      rw [leadingOnes, if_pos hb]; omega

theorem lo32_le (x : Word) : lo32 x ≤ 32 := leadingOnes_le x 32

theorem divergence_le (old new : Word) (d : Nat) (hd : d ≤ 32) : divergence old new d ≤ d := by
  have := lo32_le (~~~(old ^^^ new))
  rw [divergence]; omega

/-- Above the divergence level the two paths agree on every bit (40_keystream.md R102, R113). -/
theorem divergence_agree (old new : Word) (d k : Nat) (hn : 0 < divergence old new d)
    (h1 : d - divergence old new d ≤ k) (h2 : k < 32) : old.getLsbD k = new.getLsbD k := by
  have hb : (~~~(old ^^^ new)).getLsbD k = true := by
    refine leadingOnes_bit _ 32 k ?_ h2
    have : lo32 (~~~(old ^^^ new)) = leadingOnes (~~~(old ^^^ new)) 32 := rfl
    rw [divergence] at hn h1
    omega
  simp [h2] at hb
  exact hb

end Sys2Proof.Machine
end

