-- ==== Sys2Proof/Laws/Codec.lean ====
section
/-! SUPPORT. What the decoder and the encoder can do. -/

namespace Sys2Proof

theorem decodeZ_eq_ok (v : Word) (i j : Instr) :
    decodeZ v i = .ok j ↔ v.extractLsb' 4 28 = 0#28 ∧ i = j := by
  unfold decodeZ; split <;> simp [*]

theorem decodeF6_eq_ok (v : Word) (mk : Nat → Instr) (j : Instr) :
    decodeF6 v mk = .ok j ↔ v.extractLsb' 14 18 = 0#18 ∧ mk (fieldF6 v) = j := by
  unfold decodeF6; split <;> simp [*]

/-- Everything the decoder can answer: the low byte names the row, and the reserved bits above it are 0
(30_encoding.md R83). -/
theorem decode_eq_ok (v : Word) (i : Instr) :
    decode v = .ok i ↔ v.extractLsb' 4 4 = 0#4 ∧
      ((v.extractLsb' 0 4 = 0x1#4 ∧ v.extractLsb' 14 18 = 0#18 ∧ .create (fieldF6 v) = i) ∨
       (v.extractLsb' 0 4 = 0x2#4 ∧ v.extractLsb' 4 28 = 0#28 ∧ .goto = i) ∨
       (v.extractLsb' 0 4 = 0x3#4 ∧ v.extractLsb' 14 18 = 0#18 ∧ .compute (fieldF6 v) = i) ∨
       (v.extractLsb' 0 4 = 0x4#4 ∧ .read (fieldLen v) = i) ∨
       (v.extractLsb' 0 4 = 0x5#4 ∧ .readExact (fieldLen v) = i) ∨
       (v.extractLsb' 0 4 = 0x6#4 ∧ .xor (fieldLen v) = i) ∨
       (v.extractLsb' 0 4 = 0x7#4 ∧ v.extractLsb' 4 28 = 0#28 ∧ .reset = i)) := by
  unfold decode
  split
  · simp [*]
  · repeat' split
    all_goals simp_all [decodeZ_eq_ok, decodeF6_eq_ok]

theorem fieldF6_lt (v : Word) : fieldF6 v < 64 := (v.extractLsb' 8 6).isLt

theorem fieldLen_lt (v : Word) : fieldLen v < 16777216 := (v.extractLsb' 8 24).isLt

/-- What the decoder answers is well-formed. -/
theorem wellFormed_of_decode (v : Word) (i : Instr) (h : decode v = .ok i) : i.WellFormed := by
  have h6 := fieldF6_lt v
  have h24 := fieldLen_lt v
  rw [decode_eq_ok] at h
  obtain ⟨-, ⟨-, -, rfl⟩ | ⟨-, -, rfl⟩ | ⟨-, -, rfl⟩ | ⟨-, rfl⟩ | ⟨-, rfl⟩ | ⟨-, rfl⟩ | ⟨-, -, rfl⟩⟩ := h <;>
    simp only [Instr.WellFormed, Instr.wellFormed, decide_eq_true h6, decide_eq_true h24]

theorem opcodeOf_lt (i : Instr) : opcodeOf i < 256 := by cases i <;> simp [opcodeOf]

theorem operandOf_lt (i : Instr) (h : i.WellFormed) : operandOf i < 16777216 := by
  cases i <;> simp [Instr.WellFormed, Instr.wellFormed] at h <;> simp only [operandOf] <;> omega

/-- The command word as a number (30_encoding.md R86). -/
theorem encode_toNat (i : Instr) (h : i.WellFormed) : (encode i).toNat = operandOf i * 256 + opcodeOf i := by
  have hop := opcodeOf_lt i
  have hor := operandOf_lt i h
  have hsum : operandOf i <<< 8 ||| opcodeOf i = operandOf i * 256 + opcodeOf i := by
    rw [← Nat.shiftLeft_add_eq_or_of_lt (i := 8) hop, Nat.shiftLeft_eq]
  rw [encode, hsum, BitVec.toNat_ofNat]
  omega

end Sys2Proof
end

