-- ==== Sys2Proof/Laws/State.lean ====
section
/-! SUPPORT. The small lemmas of the state updates: one per field per update, so that no later proof unfolds a record
update. -/

namespace Sys2Proof.Machine

section
variable (s : State) (e : ErrorCode)

@[simp] theorem State.raise_seed : (s.raise e).seed = s.seed := rfl
@[simp] theorem State.raise_depth : (s.raise e).depth = s.depth := rfl
@[simp] theorem State.raise_path : (s.raise e).path = s.path := rfl
@[simp] theorem State.raise_nodes : (s.raise e).nodes = s.nodes := rfl
@[simp] theorem State.raise_offset : (s.raise e).offset = s.offset := rfl
@[simp] theorem State.raise_st : (s.raise e).st = .fault := rfl
@[simp] theorem State.raise_err : (s.raise e).err = e := rfl
@[simp] theorem State.raise_busy : (s.raise e).busy = false := rfl
@[simp] theorem State.raise_pend : (s.raise e).pend = none := rfl
@[simp] theorem State.raise_rem : (s.raise e).rem = 0#24 := rfl
@[simp] theorem State.raise_cnt : (s.raise e).cnt = 0#24 := rfl
@[simp] theorem State.raise_ovr : (s.raise e).ovr = false := rfl
@[simp] theorem State.raise_result : (s.raise e).result = s.result := rfl
@[simp] theorem State.raise_argPath : (s.raise e).argPath = s.argPath := rfl
@[simp] theorem State.raise_seedIn : (s.raise e).seedIn = s.seedIn := rfl
@[simp] theorem State.raise_ksOut : (s.raise e).ksOut = s.ksOut := rfl
@[simp] theorem State.raise_din : (s.raise e).din = s.din := rfl
@[simp] theorem State.raise_dout : (s.raise e).dout = s.dout := rfl
@[simp] theorem State.raise_script : (s.raise e).script = s.script := rfl
@[simp] theorem State.raise_log : (s.raise e).log = s.log := rfl
@[simp] theorem State.raise_turns : (s.raise e).turns = s.turns := rfl
@[simp] theorem State.raise_draws : (s.raise e).draws = s.draws := rfl
@[simp] theorem State.raise_hashes : (s.raise e).hashes = s.hashes := rfl
end

section
variable (s : State)

@[simp] theorem State.finishIgnored_seed : (s.finishIgnored).seed = s.seed := rfl
@[simp] theorem State.finishIgnored_depth : (s.finishIgnored).depth = s.depth := rfl
@[simp] theorem State.finishIgnored_path : (s.finishIgnored).path = s.path := rfl
@[simp] theorem State.finishIgnored_nodes : (s.finishIgnored).nodes = s.nodes := rfl
@[simp] theorem State.finishIgnored_offset : (s.finishIgnored).offset = s.offset := rfl
@[simp] theorem State.finishIgnored_st : (s.finishIgnored).st = s.st := rfl
@[simp] theorem State.finishIgnored_err : (s.finishIgnored).err = s.err := rfl
@[simp] theorem State.finishIgnored_busy : (s.finishIgnored).busy = false := rfl
@[simp] theorem State.finishIgnored_pend : (s.finishIgnored).pend = none := rfl
@[simp] theorem State.finishIgnored_rem : (s.finishIgnored).rem = s.rem := rfl
@[simp] theorem State.finishIgnored_cnt : (s.finishIgnored).cnt = s.cnt := rfl
@[simp] theorem State.finishIgnored_ovr : (s.finishIgnored).ovr = s.ovr := rfl
@[simp] theorem State.finishIgnored_result : (s.finishIgnored).result = s.result := rfl
@[simp] theorem State.finishIgnored_argPath : (s.finishIgnored).argPath = s.argPath := rfl
@[simp] theorem State.finishIgnored_seedIn : (s.finishIgnored).seedIn = s.seedIn := rfl
@[simp] theorem State.finishIgnored_ksOut : (s.finishIgnored).ksOut = s.ksOut := rfl
@[simp] theorem State.finishIgnored_din : (s.finishIgnored).din = s.din := rfl
@[simp] theorem State.finishIgnored_dout : (s.finishIgnored).dout = s.dout := rfl
@[simp] theorem State.finishIgnored_script : (s.finishIgnored).script = s.script := rfl
@[simp] theorem State.finishIgnored_log : (s.finishIgnored).log = s.log := rfl
@[simp] theorem State.finishIgnored_turns : (s.finishIgnored).turns = s.turns := rfl
@[simp] theorem State.finishIgnored_draws : (s.finishIgnored).draws = s.draws := rfl
@[simp] theorem State.finishIgnored_hashes : (s.finishIgnored).hashes = s.hashes := rfl
end

section
variable (s : State) (v : Word)

@[simp] theorem State.issue_seed : (s.issue v).seed = s.seed := rfl
@[simp] theorem State.issue_depth : (s.issue v).depth = s.depth := rfl
@[simp] theorem State.issue_path : (s.issue v).path = s.path := rfl
@[simp] theorem State.issue_nodes : (s.issue v).nodes = s.nodes := rfl
@[simp] theorem State.issue_offset : (s.issue v).offset = s.offset := rfl
@[simp] theorem State.issue_st : (s.issue v).st = s.st := rfl
@[simp] theorem State.issue_err : (s.issue v).err = s.err := rfl
@[simp] theorem State.issue_busy : (s.issue v).busy = true := rfl
@[simp] theorem State.issue_pend : (s.issue v).pend =
    some { word := v, argPath := s.argPath, seedIn := s.seedIn } := rfl
@[simp] theorem State.issue_rem : (s.issue v).rem = s.rem := rfl
@[simp] theorem State.issue_cnt : (s.issue v).cnt = s.cnt := rfl
@[simp] theorem State.issue_ovr : (s.issue v).ovr = false := rfl
@[simp] theorem State.issue_result : (s.issue v).result = s.result := rfl
@[simp] theorem State.issue_argPath : (s.issue v).argPath = s.argPath := rfl
@[simp] theorem State.issue_seedIn : (s.issue v).seedIn = s.seedIn := rfl
@[simp] theorem State.issue_ksOut : (s.issue v).ksOut = s.ksOut := rfl
@[simp] theorem State.issue_din : (s.issue v).din = s.din := rfl
@[simp] theorem State.issue_dout : (s.issue v).dout = s.dout := rfl
@[simp] theorem State.issue_script : (s.issue v).script = s.script := rfl
@[simp] theorem State.issue_log : (s.issue v).log = s.log := rfl
@[simp] theorem State.issue_turns : (s.issue v).turns = s.turns := rfl
@[simp] theorem State.issue_draws : (s.issue v).draws = s.draws := rfl
@[simp] theorem State.issue_hashes : (s.issue v).hashes = s.hashes := rfl
end

section
variable (s : State)

@[simp] theorem State.resetEngine_seed : (s.resetEngine).seed = zero32 := rfl
@[simp] theorem State.resetEngine_depth : (s.resetEngine).depth = 0 := rfl
@[simp] theorem State.resetEngine_path : (s.resetEngine).path = 0#32 := rfl
@[simp] theorem State.resetEngine_nodes : (s.resetEngine).nodes = Vector.replicate 32 zero32 := rfl
@[simp] theorem State.resetEngine_offset : (s.resetEngine).offset = 0 := rfl
@[simp] theorem State.resetEngine_st : (s.resetEngine).st = .unconfigured := rfl
@[simp] theorem State.resetEngine_err : (s.resetEngine).err = .none := rfl
@[simp] theorem State.resetEngine_busy : (s.resetEngine).busy = false := rfl
@[simp] theorem State.resetEngine_pend : (s.resetEngine).pend = none := rfl
@[simp] theorem State.resetEngine_rem : (s.resetEngine).rem = 0#24 := rfl
@[simp] theorem State.resetEngine_cnt : (s.resetEngine).cnt = 0#24 := rfl
@[simp] theorem State.resetEngine_ovr : (s.resetEngine).ovr = false := rfl
@[simp] theorem State.resetEngine_result : (s.resetEngine).result = 0#32 := rfl
@[simp] theorem State.resetEngine_argPath : (s.resetEngine).argPath = 0#32 := rfl
@[simp] theorem State.resetEngine_seedIn : (s.resetEngine).seedIn = Vector.replicate 8 0#32 := rfl
@[simp] theorem State.resetEngine_ksOut : (s.resetEngine).ksOut = [] := rfl
@[simp] theorem State.resetEngine_din : (s.resetEngine).din = [] := rfl
@[simp] theorem State.resetEngine_dout : (s.resetEngine).dout = [] := rfl
@[simp] theorem State.resetEngine_script : (s.resetEngine).script = s.script := rfl
@[simp] theorem State.resetEngine_log : (s.resetEngine).log = s.log := rfl
@[simp] theorem State.resetEngine_turns : (s.resetEngine).turns = s.turns := rfl
@[simp] theorem State.resetEngine_draws : (s.resetEngine).draws = s.draws := rfl
@[simp] theorem State.resetEngine_hashes : (s.resetEngine).hashes = s.hashes := rfl
end

section
variable (s : State) (f : Nat)

@[simp] theorem State.compute_seed : (s.compute f).seed = s.seed := rfl
@[simp] theorem State.compute_depth : (s.compute f).depth = s.depth := rfl
@[simp] theorem State.compute_path : (s.compute f).path = s.path := rfl
@[simp] theorem State.compute_nodes : (s.compute f).nodes =
    computeLevels Config.hash s.seed s.path s.depth.val (s.depth.val - f) f s.nodes := rfl
@[simp] theorem State.compute_offset : (s.compute f).offset = s.offset := rfl
@[simp] theorem State.compute_st : (s.compute f).st = s.st := rfl
@[simp] theorem State.compute_err : (s.compute f).err = s.err := rfl
@[simp] theorem State.compute_busy : (s.compute f).busy = s.busy := rfl
@[simp] theorem State.compute_pend : (s.compute f).pend = s.pend := rfl
@[simp] theorem State.compute_rem : (s.compute f).rem = s.rem := rfl
@[simp] theorem State.compute_cnt : (s.compute f).cnt = s.cnt := rfl
@[simp] theorem State.compute_ovr : (s.compute f).ovr = s.ovr := rfl
@[simp] theorem State.compute_result : (s.compute f).result = s.result := rfl
@[simp] theorem State.compute_argPath : (s.compute f).argPath = s.argPath := rfl
@[simp] theorem State.compute_seedIn : (s.compute f).seedIn = s.seedIn := rfl
@[simp] theorem State.compute_ksOut : (s.compute f).ksOut = s.ksOut := rfl
@[simp] theorem State.compute_din : (s.compute f).din = s.din := rfl
@[simp] theorem State.compute_dout : (s.compute f).dout = s.dout := rfl
@[simp] theorem State.compute_script : (s.compute f).script = s.script := rfl
@[simp] theorem State.compute_log : (s.compute f).log = s.log := rfl
@[simp] theorem State.compute_turns : (s.compute f).turns = s.turns := rfl
@[simp] theorem State.compute_draws : (s.compute f).draws = s.draws := rfl
@[simp] theorem State.compute_hashes : (s.compute f).hashes = s.hashes + (s.depth.val - f) := rfl
end

section
variable (s : State) (p : Word)

@[simp] theorem State.traverse_seed : (s.traverse p).seed = s.seed := rfl
@[simp] theorem State.traverse_depth : (s.traverse p).depth = s.depth := rfl
@[simp] theorem State.traverse_path : (s.traverse p).path = p := rfl
@[simp] theorem State.traverse_nodes : (s.traverse p).nodes =
    computeLevels Config.hash s.seed p s.depth.val
      (s.depth.val - divergence s.path p s.depth.val) (divergence s.path p s.depth.val) s.nodes := rfl
@[simp] theorem State.traverse_offset : (s.traverse p).offset = 0 := rfl
@[simp] theorem State.traverse_st : (s.traverse p).st = .ready := rfl
@[simp] theorem State.traverse_err : (s.traverse p).err = s.err := rfl
@[simp] theorem State.traverse_busy : (s.traverse p).busy = s.busy := rfl
@[simp] theorem State.traverse_pend : (s.traverse p).pend = s.pend := rfl
@[simp] theorem State.traverse_rem : (s.traverse p).rem = s.rem := rfl
@[simp] theorem State.traverse_cnt : (s.traverse p).cnt = s.cnt := rfl
@[simp] theorem State.traverse_ovr : (s.traverse p).ovr = s.ovr := rfl
@[simp] theorem State.traverse_result : (s.traverse p).result = s.result := rfl
@[simp] theorem State.traverse_argPath : (s.traverse p).argPath = s.argPath := rfl
@[simp] theorem State.traverse_seedIn : (s.traverse p).seedIn = s.seedIn := rfl
@[simp] theorem State.traverse_ksOut : (s.traverse p).ksOut = s.ksOut := rfl
@[simp] theorem State.traverse_din : (s.traverse p).din = s.din := rfl
@[simp] theorem State.traverse_dout : (s.traverse p).dout = s.dout := rfl
@[simp] theorem State.traverse_script : (s.traverse p).script = s.script := rfl
@[simp] theorem State.traverse_log : (s.traverse p).log = s.log := rfl
@[simp] theorem State.traverse_turns : (s.traverse p).turns = s.turns := rfl
@[simp] theorem State.traverse_draws : (s.traverse p).draws = s.draws := rfl
@[simp] theorem State.traverse_hashes : (s.traverse p).hashes =
    s.hashes + (s.depth.val - divergence s.path p s.depth.val) := rfl
end

section
variable (s : State)

@[simp] theorem State.countByte_seed : (s.countByte).seed = s.seed := rfl
@[simp] theorem State.countByte_depth : (s.countByte).depth = s.depth := rfl
@[simp] theorem State.countByte_path : (s.countByte).path = s.path := rfl
@[simp] theorem State.countByte_nodes : (s.countByte).nodes = s.nodes := rfl
@[simp] theorem State.countByte_offset : (s.countByte).offset = s.offset := rfl
@[simp] theorem State.countByte_st : (s.countByte).st = s.st := rfl
@[simp] theorem State.countByte_err : (s.countByte).err = s.err := rfl
@[simp] theorem State.countByte_busy : (s.countByte).busy = s.busy := rfl
@[simp] theorem State.countByte_pend : (s.countByte).pend = s.pend := rfl
@[simp] theorem State.countByte_rem : (s.countByte).rem = s.rem - 1#24 := rfl
@[simp] theorem State.countByte_cnt : (s.countByte).cnt = s.cnt + 1#24 := rfl
@[simp] theorem State.countByte_ovr : (s.countByte).ovr = s.ovr := rfl
@[simp] theorem State.countByte_result : (s.countByte).result = s.result := rfl
@[simp] theorem State.countByte_argPath : (s.countByte).argPath = s.argPath := rfl
@[simp] theorem State.countByte_seedIn : (s.countByte).seedIn = s.seedIn := rfl
@[simp] theorem State.countByte_ksOut : (s.countByte).ksOut = s.ksOut := rfl
@[simp] theorem State.countByte_din : (s.countByte).din = s.din := rfl
@[simp] theorem State.countByte_dout : (s.countByte).dout = s.dout := rfl
@[simp] theorem State.countByte_script : (s.countByte).script = s.script := rfl
@[simp] theorem State.countByte_log : (s.countByte).log = s.log := rfl
@[simp] theorem State.countByte_turns : (s.countByte).turns = s.turns := rfl
@[simp] theorem State.countByte_draws : (s.countByte).draws = s.draws := rfl
@[simp] theorem State.countByte_hashes : (s.countByte).hashes = s.hashes := rfl
end

section
variable (s : State) (n : Nat)

@[simp] theorem State.startBytes_seed : (s.startBytes n).seed = s.seed := rfl
@[simp] theorem State.startBytes_depth : (s.startBytes n).depth = s.depth := rfl
@[simp] theorem State.startBytes_path : (s.startBytes n).path = s.path := rfl
@[simp] theorem State.startBytes_nodes : (s.startBytes n).nodes = s.nodes := rfl
@[simp] theorem State.startBytes_offset : (s.startBytes n).offset = s.offset := rfl
@[simp] theorem State.startBytes_st : (s.startBytes n).st = s.st := rfl
@[simp] theorem State.startBytes_err : (s.startBytes n).err = s.err := rfl
@[simp] theorem State.startBytes_busy : (s.startBytes n).busy = s.busy := rfl
@[simp] theorem State.startBytes_pend : (s.startBytes n).pend = s.pend := rfl
@[simp] theorem State.startBytes_rem : (s.startBytes n).rem = BitVec.ofNat 24 n := rfl
@[simp] theorem State.startBytes_cnt : (s.startBytes n).cnt = 0#24 := rfl
@[simp] theorem State.startBytes_ovr : (s.startBytes n).ovr = s.ovr := rfl
@[simp] theorem State.startBytes_result : (s.startBytes n).result = s.result := rfl
@[simp] theorem State.startBytes_argPath : (s.startBytes n).argPath = s.argPath := rfl
@[simp] theorem State.startBytes_seedIn : (s.startBytes n).seedIn = s.seedIn := rfl
@[simp] theorem State.startBytes_ksOut : (s.startBytes n).ksOut = s.ksOut := rfl
@[simp] theorem State.startBytes_din : (s.startBytes n).din = s.din := rfl
@[simp] theorem State.startBytes_dout : (s.startBytes n).dout = s.dout := rfl
@[simp] theorem State.startBytes_script : (s.startBytes n).script = s.script := rfl
@[simp] theorem State.startBytes_log : (s.startBytes n).log = s.log := rfl
@[simp] theorem State.startBytes_turns : (s.startBytes n).turns = s.turns := rfl
@[simp] theorem State.startBytes_draws : (s.startBytes n).draws = s.draws := rfl
@[simp] theorem State.startBytes_hashes : (s.startBytes n).hashes = s.hashes := rfl
end

section
variable (s : State) (d : Nat) (p : Word) (x : B32)

@[simp] theorem State.construct_seed : (s.construct d p x).seed = x := rfl
@[simp] theorem State.construct_depth : (s.construct d p x).depth = Fin.ofNat 33 d := rfl
@[simp] theorem State.construct_path : (s.construct d p x).path = p := rfl
@[simp] theorem State.construct_nodes : (s.construct d p x).nodes =
    computeLevels Config.hash x p (Fin.ofNat 33 d).val
      ((Fin.ofNat 33 d).val - 0) 0 (Vector.replicate 32 zero32) := rfl
@[simp] theorem State.construct_offset : (s.construct d p x).offset = 0 := rfl
@[simp] theorem State.construct_st : (s.construct d p x).st = .ready := rfl
@[simp] theorem State.construct_err : (s.construct d p x).err = .none := rfl
@[simp] theorem State.construct_busy : (s.construct d p x).busy = s.busy := rfl
@[simp] theorem State.construct_pend : (s.construct d p x).pend = s.pend := rfl
@[simp] theorem State.construct_rem : (s.construct d p x).rem = s.rem := rfl
@[simp] theorem State.construct_cnt : (s.construct d p x).cnt = s.cnt := rfl
@[simp] theorem State.construct_ovr : (s.construct d p x).ovr = s.ovr := rfl
@[simp] theorem State.construct_result : (s.construct d p x).result = 0#32 := rfl
@[simp] theorem State.construct_argPath : (s.construct d p x).argPath = s.argPath := rfl
@[simp] theorem State.construct_seedIn : (s.construct d p x).seedIn = s.seedIn := rfl
@[simp] theorem State.construct_ksOut : (s.construct d p x).ksOut = [] := rfl
@[simp] theorem State.construct_din : (s.construct d p x).din = [] := rfl
@[simp] theorem State.construct_dout : (s.construct d p x).dout = [] := rfl
@[simp] theorem State.construct_script : (s.construct d p x).script = s.script := rfl
@[simp] theorem State.construct_log : (s.construct d p x).log = s.log := rfl
@[simp] theorem State.construct_turns : (s.construct d p x).turns = s.turns := rfl
@[simp] theorem State.construct_draws : (s.construct d p x).draws = s.draws := rfl
@[simp] theorem State.construct_hashes : (s.construct d p x).hashes = s.hashes + ((Fin.ofNat 33 d).val - 0) := rfl
end

section
variable (s : State)

@[simp] theorem State.drawn_seed : (s.drawn).seed = s.seed := rfl
@[simp] theorem State.drawn_depth : (s.drawn).depth = s.depth := rfl
@[simp] theorem State.drawn_path : (s.drawn).path = s.path := rfl
@[simp] theorem State.drawn_nodes : (s.drawn).nodes = s.nodes := rfl
@[simp] theorem State.drawn_offset : (s.drawn).offset = s.offset := rfl
@[simp] theorem State.drawn_st : (s.drawn).st = s.st := rfl
@[simp] theorem State.drawn_err : (s.drawn).err = s.err := rfl
@[simp] theorem State.drawn_busy : (s.drawn).busy = s.busy := rfl
@[simp] theorem State.drawn_pend : (s.drawn).pend = s.pend := rfl
@[simp] theorem State.drawn_rem : (s.drawn).rem = s.rem := rfl
@[simp] theorem State.drawn_cnt : (s.drawn).cnt = s.cnt := rfl
@[simp] theorem State.drawn_ovr : (s.drawn).ovr = s.ovr := rfl
@[simp] theorem State.drawn_result : (s.drawn).result = s.result := rfl
@[simp] theorem State.drawn_argPath : (s.drawn).argPath = s.argPath := rfl
@[simp] theorem State.drawn_seedIn : (s.drawn).seedIn = s.seedIn := rfl
@[simp] theorem State.drawn_ksOut : (s.drawn).ksOut = s.ksOut := rfl
@[simp] theorem State.drawn_din : (s.drawn).din = s.din := rfl
@[simp] theorem State.drawn_dout : (s.drawn).dout = s.dout := rfl
@[simp] theorem State.drawn_script : (s.drawn).script = s.script := rfl
@[simp] theorem State.drawn_log : (s.drawn).log = s.log := rfl
@[simp] theorem State.drawn_turns : (s.drawn).turns = s.turns := rfl
@[simp] theorem State.drawn_draws : (s.drawn).draws = s.draws + 1 := rfl
@[simp] theorem State.drawn_hashes : (s.drawn).hashes = s.hashes := rfl
end

section
variable (s : State) (e : HostEvent)

@[simp] theorem State.record_seed : (s.record e).seed = s.seed := rfl
@[simp] theorem State.record_depth : (s.record e).depth = s.depth := rfl
@[simp] theorem State.record_path : (s.record e).path = s.path := rfl
@[simp] theorem State.record_nodes : (s.record e).nodes = s.nodes := rfl
@[simp] theorem State.record_offset : (s.record e).offset = s.offset := rfl
@[simp] theorem State.record_st : (s.record e).st = s.st := rfl
@[simp] theorem State.record_err : (s.record e).err = s.err := rfl
@[simp] theorem State.record_busy : (s.record e).busy = s.busy := rfl
@[simp] theorem State.record_pend : (s.record e).pend = s.pend := rfl
@[simp] theorem State.record_rem : (s.record e).rem = s.rem := rfl
@[simp] theorem State.record_cnt : (s.record e).cnt = s.cnt := rfl
@[simp] theorem State.record_ovr : (s.record e).ovr = s.ovr := rfl
@[simp] theorem State.record_result : (s.record e).result = s.result := rfl
@[simp] theorem State.record_argPath : (s.record e).argPath = s.argPath := rfl
@[simp] theorem State.record_seedIn : (s.record e).seedIn = s.seedIn := rfl
@[simp] theorem State.record_ksOut : (s.record e).ksOut = s.ksOut := rfl
@[simp] theorem State.record_din : (s.record e).din = s.din := rfl
@[simp] theorem State.record_dout : (s.record e).dout = s.dout := rfl
@[simp] theorem State.record_script : (s.record e).script = s.script := rfl
@[simp] theorem State.record_log : (s.record e).log = e :: s.log := rfl
@[simp] theorem State.record_turns : (s.record e).turns = s.turns := rfl
@[simp] theorem State.record_draws : (s.record e).draws = s.draws := rfl
@[simp] theorem State.record_hashes : (s.record e).hashes = s.hashes := rfl
end

section
variable (s : State)

@[simp] theorem State.opDone_seed : (s.opDone).seed = s.seed := rfl
@[simp] theorem State.opDone_depth : (s.opDone).depth = s.depth := rfl
@[simp] theorem State.opDone_path : (s.opDone).path = s.path := rfl
@[simp] theorem State.opDone_nodes : (s.opDone).nodes = s.nodes := rfl
@[simp] theorem State.opDone_offset : (s.opDone).offset = s.offset := rfl
@[simp] theorem State.opDone_st : (s.opDone).st = s.st := rfl
@[simp] theorem State.opDone_err : (s.opDone).err = s.err := rfl
@[simp] theorem State.opDone_busy : (s.opDone).busy = s.busy := rfl
@[simp] theorem State.opDone_pend : (s.opDone).pend = s.pend := rfl
@[simp] theorem State.opDone_rem : (s.opDone).rem = s.rem := rfl
@[simp] theorem State.opDone_cnt : (s.opDone).cnt = s.cnt := rfl
@[simp] theorem State.opDone_ovr : (s.opDone).ovr = s.ovr := rfl
@[simp] theorem State.opDone_result : (s.opDone).result = s.result := rfl
@[simp] theorem State.opDone_argPath : (s.opDone).argPath = s.argPath := rfl
@[simp] theorem State.opDone_seedIn : (s.opDone).seedIn = s.seedIn := rfl
@[simp] theorem State.opDone_ksOut : (s.opDone).ksOut = s.ksOut := rfl
@[simp] theorem State.opDone_din : (s.opDone).din = s.din := rfl
@[simp] theorem State.opDone_dout : (s.opDone).dout = s.dout := rfl
@[simp] theorem State.opDone_script : (s.opDone).script = s.script.tail := rfl
@[simp] theorem State.opDone_log : (s.opDone).log = s.log := rfl
@[simp] theorem State.opDone_turns : (s.opDone).turns = s.turns := rfl
@[simp] theorem State.opDone_draws : (s.opDone).draws = s.draws := rfl
@[simp] theorem State.opDone_hashes : (s.opDone).hashes = s.hashes := rfl
end

section
variable (s : State) (e : HostEvent)

@[simp] theorem State.stopScript_seed : (s.stopScript e).seed = s.seed := rfl
@[simp] theorem State.stopScript_depth : (s.stopScript e).depth = s.depth := rfl
@[simp] theorem State.stopScript_path : (s.stopScript e).path = s.path := rfl
@[simp] theorem State.stopScript_nodes : (s.stopScript e).nodes = s.nodes := rfl
@[simp] theorem State.stopScript_offset : (s.stopScript e).offset = s.offset := rfl
@[simp] theorem State.stopScript_st : (s.stopScript e).st = s.st := rfl
@[simp] theorem State.stopScript_err : (s.stopScript e).err = s.err := rfl
@[simp] theorem State.stopScript_busy : (s.stopScript e).busy = s.busy := rfl
@[simp] theorem State.stopScript_pend : (s.stopScript e).pend = s.pend := rfl
@[simp] theorem State.stopScript_rem : (s.stopScript e).rem = s.rem := rfl
@[simp] theorem State.stopScript_cnt : (s.stopScript e).cnt = s.cnt := rfl
@[simp] theorem State.stopScript_ovr : (s.stopScript e).ovr = s.ovr := rfl
@[simp] theorem State.stopScript_result : (s.stopScript e).result = s.result := rfl
@[simp] theorem State.stopScript_argPath : (s.stopScript e).argPath = s.argPath := rfl
@[simp] theorem State.stopScript_seedIn : (s.stopScript e).seedIn = s.seedIn := rfl
@[simp] theorem State.stopScript_ksOut : (s.stopScript e).ksOut = s.ksOut := rfl
@[simp] theorem State.stopScript_din : (s.stopScript e).din = s.din := rfl
@[simp] theorem State.stopScript_dout : (s.stopScript e).dout = s.dout := rfl
@[simp] theorem State.stopScript_script : (s.stopScript e).script = [] := rfl
@[simp] theorem State.stopScript_log : (s.stopScript e).log = e :: s.log := rfl
@[simp] theorem State.stopScript_turns : (s.stopScript e).turns = s.turns := rfl
@[simp] theorem State.stopScript_draws : (s.stopScript e).draws = s.draws := rfl
@[simp] theorem State.stopScript_hashes : (s.stopScript e).hashes = s.hashes := rfl
end

section
variable (s : State)

@[simp] theorem State.finish_seed : (s.finish).seed = s.seed := by
  unfold State.finish; split <;> rfl
@[simp] theorem State.finish_depth : (s.finish).depth = s.depth := by
  unfold State.finish; split <;> rfl
@[simp] theorem State.finish_path : (s.finish).path = s.path := by
  unfold State.finish; split <;> rfl
@[simp] theorem State.finish_nodes : (s.finish).nodes = s.nodes := by
  unfold State.finish; split <;> rfl
@[simp] theorem State.finish_offset : (s.finish).offset = s.offset := by
  unfold State.finish; split <;> rfl
@[simp] theorem State.finish_result : (s.finish).result = s.result := by
  unfold State.finish; split <;> rfl
@[simp] theorem State.finish_argPath : (s.finish).argPath = s.argPath := by
  unfold State.finish; split <;> rfl
@[simp] theorem State.finish_seedIn : (s.finish).seedIn = s.seedIn := by
  unfold State.finish; split <;> rfl
@[simp] theorem State.finish_ksOut : (s.finish).ksOut = s.ksOut := by
  unfold State.finish; split <;> rfl
@[simp] theorem State.finish_din : (s.finish).din = s.din := by
  unfold State.finish; split <;> rfl
@[simp] theorem State.finish_dout : (s.finish).dout = s.dout := by
  unfold State.finish; split <;> rfl
@[simp] theorem State.finish_script : (s.finish).script = s.script := by
  unfold State.finish; split <;> rfl
@[simp] theorem State.finish_log : (s.finish).log = s.log := by
  unfold State.finish; split <;> rfl
@[simp] theorem State.finish_turns : (s.finish).turns = s.turns := by
  unfold State.finish; split <;> rfl
@[simp] theorem State.finish_draws : (s.finish).draws = s.draws := by
  unfold State.finish; split <;> rfl
@[simp] theorem State.finish_hashes : (s.finish).hashes = s.hashes := by
  unfold State.finish; split <;> rfl
end

section
variable (s : State)

@[simp] theorem State.adv1_seed : (s.adv1).seed = s.seed := by
  unfold State.adv1; split <;> [skip; split] <;> rfl
@[simp] theorem State.adv1_depth : (s.adv1).depth = s.depth := by
  unfold State.adv1; split <;> [skip; split] <;> rfl
@[simp] theorem State.adv1_err : (s.adv1).err = s.err := by
  unfold State.adv1; split <;> [skip; split] <;> rfl
@[simp] theorem State.adv1_busy : (s.adv1).busy = s.busy := by
  unfold State.adv1; split <;> [skip; split] <;> rfl
@[simp] theorem State.adv1_pend : (s.adv1).pend = s.pend := by
  unfold State.adv1; split <;> [skip; split] <;> rfl
@[simp] theorem State.adv1_rem : (s.adv1).rem = s.rem := by
  unfold State.adv1; split <;> [skip; split] <;> rfl
@[simp] theorem State.adv1_cnt : (s.adv1).cnt = s.cnt := by
  unfold State.adv1; split <;> [skip; split] <;> rfl
@[simp] theorem State.adv1_ovr : (s.adv1).ovr = s.ovr := by
  unfold State.adv1; split <;> [skip; split] <;> rfl
@[simp] theorem State.adv1_result : (s.adv1).result = s.result := by
  unfold State.adv1; split <;> [skip; split] <;> rfl
@[simp] theorem State.adv1_argPath : (s.adv1).argPath = s.argPath := by
  unfold State.adv1; split <;> [skip; split] <;> rfl
@[simp] theorem State.adv1_seedIn : (s.adv1).seedIn = s.seedIn := by
  unfold State.adv1; split <;> [skip; split] <;> rfl
@[simp] theorem State.adv1_ksOut : (s.adv1).ksOut = s.ksOut := by
  unfold State.adv1; split <;> [skip; split] <;> rfl
@[simp] theorem State.adv1_din : (s.adv1).din = s.din := by
  unfold State.adv1; split <;> [skip; split] <;> rfl
@[simp] theorem State.adv1_dout : (s.adv1).dout = s.dout := by
  unfold State.adv1; split <;> [skip; split] <;> rfl
@[simp] theorem State.adv1_script : (s.adv1).script = s.script := by
  unfold State.adv1; split <;> [skip; split] <;> rfl
@[simp] theorem State.adv1_log : (s.adv1).log = s.log := by
  unfold State.adv1; split <;> [skip; split] <;> rfl
@[simp] theorem State.adv1_turns : (s.adv1).turns = s.turns := by
  unfold State.adv1; split <;> [skip; split] <;> rfl
@[simp] theorem State.adv1_draws : (s.adv1).draws = s.draws := by
  unfold State.adv1; split <;> [skip; split] <;> rfl
end

section
variable (s : State) (r : Word)

@[simp] theorem State.endIfDone_seed : (s.endIfDone r).seed = s.seed := by
  unfold State.endIfDone State.finish; split <;> [split; skip] <;> rfl
@[simp] theorem State.endIfDone_depth : (s.endIfDone r).depth = s.depth := by
  unfold State.endIfDone State.finish; split <;> [split; skip] <;> rfl
@[simp] theorem State.endIfDone_path : (s.endIfDone r).path = s.path := by
  unfold State.endIfDone State.finish; split <;> [split; skip] <;> rfl
@[simp] theorem State.endIfDone_nodes : (s.endIfDone r).nodes = s.nodes := by
  unfold State.endIfDone State.finish; split <;> [split; skip] <;> rfl
@[simp] theorem State.endIfDone_offset : (s.endIfDone r).offset = s.offset := by
  unfold State.endIfDone State.finish; split <;> [split; skip] <;> rfl
@[simp] theorem State.endIfDone_argPath : (s.endIfDone r).argPath = s.argPath := by
  unfold State.endIfDone State.finish; split <;> [split; skip] <;> rfl
@[simp] theorem State.endIfDone_seedIn : (s.endIfDone r).seedIn = s.seedIn := by
  unfold State.endIfDone State.finish; split <;> [split; skip] <;> rfl
@[simp] theorem State.endIfDone_ksOut : (s.endIfDone r).ksOut = s.ksOut := by
  unfold State.endIfDone State.finish; split <;> [split; skip] <;> rfl
@[simp] theorem State.endIfDone_din : (s.endIfDone r).din = s.din := by
  unfold State.endIfDone State.finish; split <;> [split; skip] <;> rfl
@[simp] theorem State.endIfDone_dout : (s.endIfDone r).dout = s.dout := by
  unfold State.endIfDone State.finish; split <;> [split; skip] <;> rfl
@[simp] theorem State.endIfDone_script : (s.endIfDone r).script = s.script := by
  unfold State.endIfDone State.finish; split <;> [split; skip] <;> rfl
@[simp] theorem State.endIfDone_log : (s.endIfDone r).log = s.log := by
  unfold State.endIfDone State.finish; split <;> [split; skip] <;> rfl
@[simp] theorem State.endIfDone_turns : (s.endIfDone r).turns = s.turns := by
  unfold State.endIfDone State.finish; split <;> [split; skip] <;> rfl
@[simp] theorem State.endIfDone_draws : (s.endIfDone r).draws = s.draws := by
  unfold State.endIfDone State.finish; split <;> [split; skip] <;> rfl
@[simp] theorem State.endIfDone_hashes : (s.endIfDone r).hashes = s.hashes := by
  unfold State.endIfDone State.finish; split <;> [split; skip] <;> rfl
end

section
variable (s : State)

@[simp] theorem State.finish_busy : s.finish.busy = false := by
  unfold State.finish; split <;> rfl
@[simp] theorem State.finish_pend : s.finish.pend = none := by
  unfold State.finish; split <;> rfl
@[simp] theorem State.finish_rem : s.finish.rem = 0#24 := by
  unfold State.finish; split <;> rfl
@[simp] theorem State.finish_cnt : s.finish.cnt = 0#24 := by
  unfold State.finish; split <;> rfl
@[simp] theorem State.finish_ovr : s.finish.ovr = false := by
  unfold State.finish; split <;> simp_all
@[simp] theorem State.finish_st : s.finish.st = if s.ovr then .fault else s.st := by
  unfold State.finish; split <;> rfl
@[simp] theorem State.finish_err : s.finish.err = if s.ovr then .overrun else s.err := by
  unfold State.finish; split <;> rfl
end

end Sys2Proof.Machine
end

