-- ==== Sys2Proof/Laws/Ops.lean ====
section
/-! SUPPORT. What each shared operation can do, said once: later proofs cite these and do not unfold the operations. -/

namespace Sys2Proof.Machine

@[simp] theorem State.afterTurn_seed (s : State) : s.afterTurn.seed = s.seed := rfl
@[simp] theorem State.afterTurn_depth (s : State) : s.afterTurn.depth = s.depth := rfl
@[simp] theorem State.afterTurn_path (s : State) : s.afterTurn.path = s.path := rfl
@[simp] theorem State.afterTurn_nodes (s : State) : s.afterTurn.nodes = s.nodes := rfl
@[simp] theorem State.afterTurn_offset (s : State) : s.afterTurn.offset = s.offset := rfl
@[simp] theorem State.afterTurn_st (s : State) : s.afterTurn.st = s.st := rfl
@[simp] theorem State.afterTurn_err (s : State) : s.afterTurn.err = s.err := rfl
@[simp] theorem State.afterTurn_busy (s : State) : s.afterTurn.busy = s.busy := rfl
@[simp] theorem State.afterTurn_pend (s : State) : s.afterTurn.pend = s.pend := rfl
@[simp] theorem State.afterTurn_rem (s : State) : s.afterTurn.rem = s.rem := rfl
@[simp] theorem State.afterTurn_cnt (s : State) : s.afterTurn.cnt = s.cnt := rfl
@[simp] theorem State.afterTurn_ovr (s : State) : s.afterTurn.ovr = s.ovr := rfl
@[simp] theorem State.afterTurn_result (s : State) : s.afterTurn.result = s.result := rfl
@[simp] theorem State.afterTurn_argPath (s : State) : s.afterTurn.argPath = s.argPath := rfl
@[simp] theorem State.afterTurn_seedIn (s : State) : s.afterTurn.seedIn = s.seedIn := rfl
@[simp] theorem State.afterTurn_ksOut (s : State) : s.afterTurn.ksOut = s.ksOut := rfl
@[simp] theorem State.afterTurn_din (s : State) : s.afterTurn.din = s.din := rfl
@[simp] theorem State.afterTurn_dout (s : State) : s.afterTurn.dout = s.dout := rfl
@[simp] theorem State.afterTurn_script (s : State) : s.afterTurn.script = s.script := rfl
@[simp] theorem State.afterTurn_log (s : State) : s.afterTurn.log = s.log := rfl
@[simp] theorem State.afterTurn_turns (s : State) : s.afterTurn.turns = s.turns.tail := rfl
@[simp] theorem State.afterTurn_draws (s : State) : s.afterTurn.draws = s.draws := rfl
@[simp] theorem State.afterTurn_hashes (s : State) : s.afterTurn.hashes = s.hashes := rfl

/-- `ifConfigured`: the three outcomes of R185. -/
theorem State.ifConfigured_cases (s : State) (body : State → State) :
    (s.st = .fault ∧ s.ifConfigured body = s.finishIgnored) ∨
    (s.st = .unconfigured ∧ s.ifConfigured body = s.raise .notConfigured) ∨
    ((s.st = .ready ∨ s.st = .exhausted) ∧ s.ifConfigured body = body s) := by
  unfold State.ifConfigured; cases h : s.st <;> simp

/-- `startPull`: empty, refused, or started (40_keystream.md R112). -/
theorem State.startPull_cases (len : Nat) (s : State) :
    (len = 0 ∧ s.startPull len = s.finishEmpty) ∨
    (0 < len ∧ s.avail < len ∧ s.startPull len = s.raise .capacityError) ∨
    (0 < len ∧ len ≤ s.avail ∧ s.startPull len = s.startBytes len) := by
  unfold State.startPull
  split
  · simp [*]
  · split
    · simp [*]; omega
    · right; right; exact ⟨by omega, by omega, rfl⟩

/-- `startRead`: empty, refused, or started (40_keystream.md R111). -/
theorem State.startRead_cases (len : Nat) (s : State) :
    (len = 0 ∧ s.startRead len = s.finishEmpty) ∨
    (0 < len ∧ s.st = .exhausted ∧ s.startRead len = s.raise .capacityError) ∨
    (0 < len ∧ s.st ≠ .exhausted ∧ s.startRead len = s.startBytes (min len (32 - s.offset.val))) := by
  unfold State.startRead
  split
  · simp [*]
  · split
    · simp [*]; omega
    · right; right; exact ⟨by omega, by assumption, rfl⟩

/-- `adv1`: within the leaf, to the next leaf, or exhausted (40_keystream.md R105). -/
theorem State.adv1_cases (s : State) :
    (s.offset.val < 31 ∧ s.adv1 = { s with offset := Fin.ofNat 33 (s.offset.val + 1) }) ∨
    (31 ≤ s.offset.val ∧ s.path &&& s.mask ≠ s.mask ∧ s.adv1 = s.traverse (s.path + 1#32)) ∨
    (31 ≤ s.offset.val ∧ s.path &&& s.mask = s.mask ∧ s.adv1 = { s with offset := 32, st := .exhausted }) := by
  unfold State.adv1
  split
  · left; exact ⟨by omega, rfl⟩
  · split
    · right; left; exact ⟨by omega, by assumption, rfl⟩
    · right; right; exact ⟨by omega, by simp_all, rfl⟩

/-- `endIfDone`: the command goes on, or it finishes with a result (40_keystream.md R106). -/
theorem State.endIfDone_cases (s : State) (r : Word) :
    (s.rem ≠ 0#24 ∧ s.endIfDone r = s) ∨
    (s.rem = 0#24 ∧ s.endIfDone r = State.finish { s with result := r }) := by
  unfold State.endIfDone; split <;> simp [*]

/-- The byte under the cursor of a state with an instance whose chain is right (40_keystream.md R100, R105). -/
theorem State.leafByte_eq (s : State) (hd : 1 ≤ s.depth.val) (ho : s.offset.val < 32)
    (hc : s.levelRight (s.depth.val - 1)) :
    s.leafByte = some ((leafval Config.hash s.seed s.path s.depth.val)[s.offset.val]) := by
  unfold State.leafByte
  rw [if_pos (by omega), hc]
  simp [leafval, ho]

/-- `ks_step`: a hold, or a byte delivered; the stop is for states without a leaf byte (40_keystream.md R106). -/
theorem State.ksStep_eq (s : State) (k : Byte) (h : s.leafByte = some k) :
    s.ksStep = .next (if s.ksOut.length < Config.fifoDepth then
      (State.countByte (State.adv1 { s with ksOut := s.ksOut ++ [k] })).endIfDone ((s.cnt + 1#24).setWidth 32)
      else s) := by
  unfold State.ksStep
  split
  · simp [h]
  · rfl

/-- `xor_step` with a byte to take and room: the byte is combined and delivered (41_cipher.md R150). -/
theorem State.xorStep_eq (s : State) (len : Nat) (k x : Byte) (rest : List Byte) (h : s.leafByte = some k)
    (hd : s.din = x :: rest) :
    s.xorStep len = .next (if s.dout.length < Config.fifoDepth then
      (State.countByte
        { State.adv1 { s with din := rest } with
          dout := (State.adv1 { s with din := rest }).dout ++ [x ^^^ k] }).endIfDone (BitVec.ofNat 32 len)
      else s) := by
  unfold State.xorStep
  rw [hd]
  dsimp only
  split
  · rw [h]
  · rfl

/-- `xor_step` with nothing to take holds (70_reset_and_hazards.md R228). -/
theorem State.xorStep_empty (s : State) (len : Nat) (hd : s.din = []) : s.xorStep len = .next s := by
  unfold State.xorStep; rw [hd]

/-- The mask as a number (10_state.md R24). -/
theorem maskOf_toNat (d : Nat) (hd : d ≤ 32) : (maskOf d).toNat = 2 ^ d - 1 := by
  have h : 2 ^ d ≤ 2 ^ 32 := Nat.pow_le_pow_right (by decide) hd
  rw [maskOf, BitVec.toNat_ofNat]
  omega

/-- The leaf index as a number: the low `depth` bits of the path (10_state.md R24). -/
theorem and_maskOf_toNat (p : Word) (d : Nat) (hd : d ≤ 32) : (p &&& maskOf d).toNat = p.toNat % 2 ^ d := by
  rw [BitVec.toNat_and, maskOf_toNat d hd, Nat.and_two_pow_sub_one_eq_mod]

/-- A traversal keeps a right chain right and the unused slots as they are (40_keystream.md R103, R113). -/
theorem State.traverse_chain (s : State) (p : Word) (h : ∀ i, i < s.depth.val → s.levelRight i) :
    ∀ i, i < s.depth.val → (s.traverse p).levelRight i := by
  have hd := s.depth.isLt
  have hn := divergence_le s.path p s.depth.val (by omega)
  intro i hi
  rw [State.levelRight]
  simp only [State.traverse_nodes, State.traverse_seed, State.traverse_path, State.traverse_depth]
  refine computeLevels_chain _ _ _ _ _ _ _ (by omega) (fun j hj => ?_) i (by omega)
  rw [h j (by omega)]
  refine congrArg some (chainval_congr _ _ _ _ _ _ fun k h1 h2 => ?_)
  exact divergence_agree s.path p s.depth.val k (by omega) (by omega) (by omega)

theorem State.traverse_unused (s : State) (p : Word) (i : Nat) (h : s.depth.val ≤ i) :
    (s.traverse p).nodes[i]? = s.nodes[i]? := by
  have hd := s.depth.isLt
  have hn := divergence_le s.path p s.depth.val (by omega)
  rw [State.traverse_nodes]
  exact computeLevels_outside _ _ _ _ _ _ _ _ (by omega)

/-- A new instance has a right chain, and zero in the unused slots (40_keystream.md R108). -/
theorem State.construct_chain (s : State) (d : Nat) (p : Word) (x : B32) (hd : d ≤ 32) (i : Nat) (hi : i < d) :
    (s.construct d p x).levelRight i := by
  have hv : (Fin.ofNat 33 d).val = d := Nat.mod_eq_of_lt (by omega)
  rw [State.levelRight]
  simp only [State.construct_nodes, State.construct_seed, State.construct_path, State.construct_depth, hv]
  exact computeLevels_chain _ _ _ _ _ _ _ (by omega) (by omega) i (by omega)

theorem State.construct_unused (s : State) (d : Nat) (p : Word) (x : B32) (hd : d ≤ 32) (i : Nat) (h1 : d ≤ i)
    (h2 : i < 32) : (s.construct d p x).nodes[i]? = some zero32 := by
  have hv : (Fin.ofNat 33 d).val = d := Nat.mod_eq_of_lt (by omega)
  rw [State.construct_nodes, hv, computeLevels_outside _ _ _ _ _ _ _ _ (by omega)]
  simp [h2]

/-- Recomputing a right chain changes no slot (40_keystream.md R109). -/
theorem State.compute_nodes_same (s : State) (f : Nat) (h : ∀ i, i < s.depth.val → s.levelRight i) :
    (s.compute f).nodes = s.nodes := by
  have hd := s.depth.isLt
  have key : ∀ i : Nat, (s.compute f).nodes[i]? = s.nodes[i]? := by
    intro i
    rw [State.compute_nodes]
    by_cases hi : i < s.depth.val ∧ f ≤ i
    · rw [h i hi.1]
      exact computeLevels_chain _ _ _ _ _ _ _ (by omega) (fun j hj => h j (by omega)) i (by omega)
    · exact computeLevels_outside _ _ _ _ _ _ _ _ (by omega)
  exact Vector.ext fun i hi => by simpa [hi] using key i

/-- avail() depends only on the cursor, the depth and STATE (40_keystream.md R104). -/
theorem State.avail_congr (s t : State) (h1 : t.st = s.st) (h2 : t.depth = s.depth) (h3 : t.path = s.path)
    (h4 : t.offset = s.offset) : t.avail = s.avail := by
  simp only [State.avail, State.mask, h1, h2, h3, h4]

/-- One delivered byte lowers what is left by one (40_keystream.md R104, R105). -/
theorem State.adv1_avail (s : State) (hst : s.st = .ready) (ho : s.offset.val < 32) :
    s.adv1.avail + 1 = s.avail := by
  have hd := s.depth.isLt
  have hpow : 2 ^ s.depth.val ≤ 2 ^ 32 := Nat.pow_le_pow_right (by decide) (by omega)
  have hpos : 0 < 2 ^ s.depth.val := Nat.pos_of_ne_zero (by positivity)
  have hm := maskOf_toNat s.depth.val (by omega)
  have hleaf := and_maskOf_toNat s.path s.depth.val (by omega)
  have hlt := Nat.mod_lt s.path.toNat hpos
  have hs : s.avail = (s.mask.toNat - (s.path &&& s.mask).toNat) * 32 + (32 - s.offset.val) := by
    simp [State.avail, hst]
  rw [hs]
  obtain ⟨h1, h2⟩ | ⟨h1, h3, h2⟩ | ⟨h1, h3, h2⟩ := s.adv1_cases <;> rw [h2]
  · simp only [State.avail, State.mask, hst]
    rw [show (Fin.ofNat 33 (s.offset.val + 1)).val = s.offset.val + 1 from Nat.mod_eq_of_lt (by omega)]
    simp
    omega
  · have hne : s.path.toNat % 2 ^ s.depth.val ≠ 2 ^ s.depth.val - 1 := by
      rw [← hleaf, ← hm]; intro h; exact h3 (BitVec.eq_of_toNat_eq h)
    have hnext : ((s.path + 1#32) &&& maskOf s.depth.val).toNat = s.path.toNat % 2 ^ s.depth.val + 1 := by
      rw [and_maskOf_toNat _ _ (by omega), BitVec.toNat_add,
        show (1#32).toNat = 1 from rfl, Nat.mod_mod_of_dvd _ (Nat.pow_dvd_pow 2 (by omega)), Nat.add_mod]
      by_cases h1 : s.depth.val = 0
      · simp [h1] at hne; omega
      · have : 2 ≤ 2 ^ s.depth.val := by
          calc 2 = 2 ^ 1 := rfl
            _ ≤ _ := Nat.pow_le_pow_right (by decide) (by omega)
        rw [Nat.mod_eq_of_lt (a := 1) (by omega), Nat.mod_eq_of_lt (by omega)]
    have hs2 : (s.traverse (s.path + 1#32)).avail =
        ((maskOf s.depth.val).toNat - ((s.path + 1#32) &&& maskOf s.depth.val).toNat) * 32 + 32 := by
      simp [State.avail, State.mask]
    rw [hs2, hnext, State.mask, hleaf, hm]
    omega
  · simp only [State.avail, State.mask] at *
    simp [h3]
    omega

end Sys2Proof.Machine
end

