-- ==== Sys2Proof/Laws/PerInstr.lean ====
section
/-! SUPPORT. A statement about every command, made per command: the encoding of a well-formed command selects its own
row of the opcode map (30_encoding.md R82). -/

namespace Sys2Proof.Laws

/-- The word of a well-formed command, masked with its row's mask, is its row's match (30_encoding.md R82, R86). -/
def EncodesRow.Statement (i : Instr) : Prop := i.WellFormed → encode i &&& rowMask i = rowMatch i

/-- A command word is its operand in bits 31:8 above an opcode of one byte. -/
theorem encode_eq_append (i : Instr) (h : i.WellFormed) :
    encode i = BitVec.ofNat 24 (operandOf i) ++ BitVec.ofNat 8 (opcodeOf i) := by
  have h1 := opcodeOf_lt i
  have h2 := operandOf_lt i h
  refine BitVec.eq_of_toNat_eq ?_
  rw [encode_toNat i h, BitVec.toNat_append, BitVec.toNat_ofNat, BitVec.toNat_ofNat, Nat.mod_eq_of_lt (by omega),
    Nat.mod_eq_of_lt (by omega), ← Nat.shiftLeft_add_eq_or_of_lt (i := 8) h1, Nat.shiftLeft_eq]

/-- An operand of format F6 has no bit above bit 5, so the row's mask takes none of it (30_encoding.md R80). -/
theorem ofNat_and_f6 (n : Nat) (h : n < 64) : BitVec.ofNat 24 n &&& 0xFFFFC0#24 = 0#24 := by
  have : ∀ m : Fin 64, BitVec.ofNat 24 m.val &&& 0xFFFFC0#24 = 0#24 := by decide
  exact this ⟨n, h⟩

theorem append_and (x a : BitVec 24) (y b : BitVec 8) : (x ++ y) &&& (a ++ b) = (x &&& a) ++ (y &&& b) :=
  BitVec.and_append

theorem EncodesRow.create (depth : Nat) : EncodesRow.Statement (.create depth) := by
  intro h
  have hd : depth < 64 := by simpa [Instr.WellFormed, Instr.wellFormed] using h
  rw [encode_eq_append _ h, show rowMask (.create depth) = 0xFFFFC0#24 ++ 0xFF#8 from rfl, append_and]
  simp only [operandOf, opcodeOf, ofNat_and_f6 depth hd]
  rfl

theorem EncodesRow.goto : EncodesRow.Statement .goto := fun _ => rfl

theorem EncodesRow.compute (fromLevel : Nat) : EncodesRow.Statement (.compute fromLevel) := by
  intro h
  have hf : fromLevel < 64 := by simpa [Instr.WellFormed, Instr.wellFormed] using h
  rw [encode_eq_append _ h, show rowMask (.compute fromLevel) = 0xFFFFC0#24 ++ 0xFF#8 from rfl, append_and]
  simp only [operandOf, opcodeOf, ofNat_and_f6 fromLevel hf]
  rfl

theorem EncodesRow.read (len : Nat) : EncodesRow.Statement (.read len) := by
  intro h
  rw [encode_eq_append _ h, show rowMask (.read len) = 0#24 ++ 0xFF#8 from rfl, append_and, BitVec.and_zero]
  simp only [opcodeOf]
  rfl

theorem EncodesRow.readExact (len : Nat) : EncodesRow.Statement (.readExact len) := by
  intro h
  rw [encode_eq_append _ h, show rowMask (.readExact len) = 0#24 ++ 0xFF#8 from rfl, append_and, BitVec.and_zero]
  simp only [opcodeOf]
  rfl

theorem EncodesRow.xor (len : Nat) : EncodesRow.Statement (.xor len) := by
  intro h
  rw [encode_eq_append _ h, show rowMask (.xor len) = 0#24 ++ 0xFF#8 from rfl, append_and, BitVec.and_zero]
  simp only [opcodeOf]
  rfl

theorem EncodesRow.reset : EncodesRow.Statement .reset := fun _ => rfl

end Sys2Proof.Laws
end

