-- ==== Sys2Proof/Laws/Window.lean ====
section
/-! SUPPORT. What a host access, a host operation and a run of steps can do, said once. -/

namespace Sys2Proof.Machine

/-- An aligned 4-byte access in the window reaches its offset (20_memory.md R62). -/
theorem windowAccess_at (off : Nat) (h : off < 4096) (h4 : off % 4 = 0) :
    windowAccess (Config.engineBase + off) 4 = .at off := by
  unfold windowAccess
  rw [if_neg (by omega), Nat.add_sub_cancel_left, if_pos ⟨rfl, h4⟩]

/-- Any other access to the window is undefined (20_memory.md R65). -/
theorem windowAccess_undefined (addr width : Nat) (h1 : Config.engineBase ≤ addr)
    (h2 : addr < Config.engineBase + 4096) (h : width ≠ 4 ∨ addr % 4 ≠ 0) : windowAccess addr width = .undefined := by
  have hb : Config.engineBase % 4 = 0 := by unfold Config.engineBase; omega
  unfold windowAccess
  rw [if_neg (by omega), if_neg (by omega)]

/-- An address outside the window (20_memory.md R60). -/
theorem windowAccess_outside (addr width : Nat) (h : addr < Config.engineBase ∨ Config.engineBase + 4096 ≤ addr) :
    windowAccess addr width = .outside := by
  unfold windowAccess
  rw [if_pos h]

/-- A read of a register answers its value and is recorded (20_memory.md R62, R67). -/
theorem State.memRead_at (s : State) (off : Nat) (h : off < 4096) (h4 : off % 4 = 0) :
    s.memRead (Config.engineBase + off) 4 =
      .next ((s.readReg (regAt off)).1,
        (s.readReg (regAt off)).2.record (.readValue (Config.engineBase + off) (s.readReg (regAt off)).1)) := by
  unfold State.memRead
  rw [windowAccess_at off h h4]

/-- A write of a register (20_memory.md R62, R67). -/
theorem State.memWrite_at (s : State) (off : Nat) (v : Word) (h : off < 4096) (h4 : off % 4 = 0) :
    s.memWrite (Config.engineBase + off) 4 v = .next (s.writeReg (regAt off) v) := by
  unfold State.memWrite
  rw [windowAccess_at off h h4]

/-- A read changes nothing but the number of the next free draw (20_memory.md R67, 70_reset_and_hazards.md R225). -/
theorem State.readReg_state (s : State) (r : Reg) : (s.readReg r).2 = { s with draws := (s.readReg r).2.draws } := by
  unfold State.readReg
  cases r <;> split <;> rfl

/-- A read while not busy (10_state.md R28 to R40). -/
theorem State.readReg_quiet (s : State) (r : Reg) (h : s.busy = false) : s.readReg r = (s.quietReg r, s) := by
  unfold State.readReg
  rw [if_neg (by simp [h])]

/-- The state after the host has read STATUS. -/
def State.statusSeen (s : State) : State :=
  (s.readReg .status).2.record (.readValue statusAddr (s.readReg .status).1)

/-- Reading STATUS changes the host's record and the number of the next free draw, nothing else (20_memory.md R67). -/
theorem State.statusSeen_eq (s : State) :
    s.statusSeen = { s with
      draws := (s.readReg .status).2.draws
      log := .readValue statusAddr (s.readReg .status).1 :: s.log } :=
  congrArg (State.record · _) (s.readReg_state .status)

/-- A read of STATUS goes on from the value and the state after the read (30_encoding.md R87). -/
theorem State.onStatus_eq (s : State) (k : Word → State → State) :
    s.onStatus k = .next (k (s.readReg .status).1 s.statusSeen) := by
  unfold State.onStatus statusAddr
  rw [s.memRead_at 0x004 (by decide) (by decide)]
  rfl

theorem stateField_statusWord : ∀ a b c, stateField (statusWord a b c) = a := by decide
theorem busyField_statusWord : ∀ a b c, busyField (statusWord a b c) = b := by decide
theorem errField_statusWord : ∀ a b c, errField (statusWord a b c) = c := by decide

/-- STATUS.BUSY is exact at all times (10_state.md R29). -/
theorem busyField_status (s : State) : busyField (s.readReg .status).1 = s.busy := by
  unfold State.readReg
  split
  · rename_i hb; rw [hb]; exact busyField_statusWord _ _ _
  · exact busyField_statusWord _ _ _

/-- STATUS.STATE while not busy is the code of `st` (10_state.md R29). -/
theorem stateField_status (s : State) (hb : s.busy = false) : stateField (s.readReg .status).1 = stCode s.st := by
  rw [s.readReg_quiet _ hb]
  exact stateField_statusWord _ _ _

theorem stCode_eq_three (x : St) : stCode x = 3#2 ↔ x = .fault := by cases x <;> decide

/-- The chunk loop, while it can neither push nor pop, stops exactly where the engine is not busy and in FAULT
(41_cipher.md R155). -/
theorem State.stopOnFailure_eq (s : State) :
    s.stopOnFailure =
      .next (if s.busy = false ∧ s.st = .fault then s.statusSeen.stopScript .checkFailed else s.statusSeen) := by
  unfold State.stopOnFailure
  rw [s.onStatus_eq, busyField_status]
  cases hb : s.busy
  · simp only [stateField_status s hb, stCode_eq_three]
  · simp

/-- The host's write of a register at an offset of the window (30_encoding.md R86). -/
theorem hostStep_writeAt (s : State) (off : Nat) (v : Word) (rest : List HostOp) (hs : s.script = writeAt off v :: rest)
    (h : off < 4096) (h4 : off % 4 = 0) : hostStep s = .next (s.opDone.writeReg (regAt off) v) := by
  unfold hostStep
  rw [hs, writeAt]
  exact s.opDone.memWrite_at off v h h4

theorem step_engine_turn (s : State) (ts : List Turn) (h : s.turns = .engine :: ts) :
    step s = engineStep { s with turns := ts } := by
  unfold step; rw [h]; rfl

theorem step_host_turn (s : State) (ts : List Turn) (h : s.turns = .host :: ts) :
    step s = hostStep { s with turns := ts } := by
  unfold step; rw [h]; rfl

theorem step_no_turn (s : State) (h : s.turns = []) : step s = engineStep s := by
  unfold step; rw [h]

/-- A run of `j + k` steps is a run of `j` and then one of `k`. -/
theorem runSteps_add (j k : Nat) (s t : State) (h : runSteps j s = .next t) : runSteps (j + k) s = runSteps k t := by
  induction j generalizing s with
  | zero => rw [runSteps] at h; cases h; rw [Nat.zero_add]
  | succ j ih =>
    rw [show j + 1 + k = j + k + 1 by omega, runSteps]
    rw [runSteps] at h
    cases hs : step s with
    | next u => rw [hs] at h; exact ih u h
    | fault f => rw [hs] at h; cases h
    | refused r => rw [hs] at h; cases h

end Sys2Proof.Machine
end

