-- ==== Sys2Proof/Tests/Slice0.lean ====
section
/-! SUPPORT. The model's own tests. The expected values are those of 95_test_vectors.md (the section is named at each
test) or are worked out by hand from the rule named; the theorems `witness_...` show that the hypotheses of a statement
can be met. -/

namespace Sys2Proof.Machine.Tests

open Sys2Proof Sys2Proof.Machine Sys2Proof.Expected

/-! ## Well-formedness (30_encoding.md R86) -/

theorem test_wf_create_64 : ¬ (Instr.create 64).WellFormed := by decide
theorem test_wf_compute_64 : ¬ (Instr.compute 64).WellFormed := by decide
theorem test_wf_read_2_24 : ¬ (Instr.read 16777216).WellFormed := by decide
theorem test_wf_read_exact_2_24 : ¬ (Instr.readExact 16777216).WellFormed := by decide
theorem test_wf_xor_2_24 : ¬ (Instr.xor 16777216).WellFormed := by decide
theorem test_wf_limits : (Instr.create 63).WellFormed ∧ (Instr.compute 63).WellFormed ∧
    (Instr.read 16777215).WellFormed ∧ (Instr.readExact 16777215).WellFormed ∧ (Instr.xor 16777215).WellFormed ∧
    Instr.goto.WellFormed ∧ Instr.reset.WellFormed := by decide
theorem test_assembler_refuses : assemble (.create 64) = none ∧ assemble (.read 16777216) = none := by decide

/-! ## Decoding, words written out from the formats of 30_encoding.md R80, R82 (95_test_vectors.md 2.1)

A word reads, from bit 31 down: the bits above the operand, the operand, bits 7:4, the opcode. -/

theorem test_decode_create : decode (0#18 ++ 0b000100#6 ++ 0b0000#4 ++ 0b0001#4) = .ok (.create 4) := by decide
theorem test_decode_create_63 : decode (0#18 ++ 0b111111#6 ++ 0b0000#4 ++ 0b0001#4) = .ok (.create 63) := by decide
theorem test_decode_goto : decode (0#24 ++ 0b0000#4 ++ 0b0010#4) = .ok .goto := by decide
theorem test_decode_compute : decode (0#18 ++ 0b100001#6 ++ 0b0000#4 ++ 0b0011#4) = .ok (.compute 33) := by decide
theorem test_decode_read : decode (0b000000000000000000001000#24 ++ 0b0000#4 ++ 0b0100#4) = .ok (.read 8) := by decide
theorem test_decode_read_largest : decode (0b111111111111111111111111#24 ++ 0b0000#4 ++ 0b0100#4) =
    .ok (.read 16777215) := by decide
theorem test_decode_read_exact : decode (0b000000000000000000101000#24 ++ 0b0000#4 ++ 0b0101#4) =
    .ok (.readExact 40) := by decide
theorem test_decode_xor : decode (0b000000100000000000000000#24 ++ 0b0000#4 ++ 0b0110#4) = .ok (.xor 131072) := by
  decide
theorem test_decode_reset : decode (0#24 ++ 0b0000#4 ++ 0b0111#4) = .ok .reset := by decide
theorem test_decode_illegal : decode 0x00000008#32 = .error .opcode ∧ decode 0x0000000F#32 = .error .opcode ∧
    decode 0x00000011#32 = .error .reserved7to4 ∧ decode 0x00000102#32 = .error .reserved31to4 ∧
    decode 0x80000002#32 = .error .reserved31to4 ∧ decode 0x00004001#32 = .error .reserved31to14 ∧
    decode 0xFFFFFFFF#32 = .error .reserved7to4 := by decide
theorem test_encode : encode (.create 4) = 0x00000401#32 ∧ encode .goto = 0x00000002#32 ∧
    encode (.compute 2) = 0x00000203#32 ∧ encode (.read 16777215) = 0xFFFFFF04#32 ∧
    encode (.readExact 40) = 0x00002805#32 ∧ encode (.xor 3) = 0x00000306#32 ∧
    encode .reset = 0x00000007#32 := by decide

/-! ## The chain (95_test_vectors.md V-S1, 2.3, section 0) -/

/-- V-S1: depth 4, leaf 0: the left-child rule four times, for every hash function. -/
theorem test_chain_leaf0 (H : B32 → B32) (s : B32) : leafval H s 0#32 4 = H (H (H (H s))) := rfl

/-- V-S1: leaf 1 of depth 4 hashes the byte-reversed parent at the last level. -/
theorem test_chain_leaf1 (H : B32 → B32) (s : B32) : leafval H s 1#32 4 = H (rev (H (H (H s)))) := rfl

/-- V-S2: leaf 5 = 0101 of depth 4 is left, right, left, right. -/
theorem test_chain_leaf5 (H : B32 → B32) (s : B32) : leafval H s 5#32 4 = H (rev (H (H (rev (H s))))) := rfl

/-- 2.3: divergence levels at depth 4. -/
theorem test_divergence : divergence 0x0#32 0x1#32 4 = 3 ∧ divergence 0x3#32 0x4#32 4 = 1 ∧
    divergence 0x5#32 0x6#32 4 = 2 ∧ divergence 0x6#32 0x6#32 4 = 4 ∧ divergence 0x6#32 0x10000006#32 4 = 0 ∧
    divergence 0xF#32 0x10#32 4 = 0 := by decide

/-- The seed of 95_test_vectors.md section 0. -/
def specSeed : B32 := #v[0x9f#8, 0x86#8, 0xd0#8, 0x81#8, 0x88#8, 0x4c#8, 0x7d#8, 0x65#8, 0x9a#8, 0x2f#8, 0xea#8, 0xa0#8,
  0xc5#8, 0x5a#8, 0xd0#8, 0x15#8, 0xa3#8, 0xbf#8, 0x4f#8, 0x1b#8, 0x2b#8, 0x0b#8, 0x82#8, 0x2c#8, 0xd1#8, 0x5d#8, 0x6c#8,
  0x15#8, 0xb0#8, 0xf0#8, 0x0a#8, 0x08#8]

/-- Section 0: SEED_IN0..7 hold the seed packed little-endian. -/
theorem test_seed_packing : wordsOfSeed specSeed = #v[0x81D0869F#32, 0x657D4C88#32, 0xA0EA2F9A#32, 0x15D05AC5#32,
    0x1B4FBFA3#32, 0x2C820B2B#32, 0x156C5DD1#32, 0x080AF0B0#32] := by decide

/-- The STATUS words of the notes that open 95_test_vectors.md. -/
theorem test_status_words : State.reset.quietReg .status = 0x00#32 ∧
    ({ State.reset with st := .ready } : State).quietReg .status = 0x01#32 ∧
    ({ State.reset with st := .exhausted } : State).quietReg .status = 0x02#32 ∧
    (State.reset.raise .illegalCommand).quietReg .status = 0x13#32 ∧
    (State.reset.raise .configError).quietReg .status = 0x23#32 ∧
    (State.reset.raise .notConfigured).quietReg .status = 0x33#32 ∧
    (State.reset.raise .capacityError).quietReg .status = 0x43#32 ∧
    (State.reset.raise .overrun).quietReg .status = 0x53#32 := by decide

/-- V-S4: the chunk loop over 8 bytes in chunks of 4 makes a third, empty pass (program P3). -/
theorem test_chunk_loop : chunkPasses chunkPass 4 3 [1#8, 2#8, 3#8, 4#8, 5#8, 6#8, 7#8, 8#8] =
    chunkPass [1#8, 2#8, 3#8, 4#8] ++ (chunkPass [5#8, 6#8, 7#8, 8#8] ++ chunkPass []) := rfl

/-! ## Small states -/

/-- The node chain of the depth 1 instance with the zero seed at a path: one level (40_keystream.md R100). -/
def oneLevel (p : Word) : Nodes := (Vector.replicate 32 zero32).set 0 (Config.hash (childInput (p.getLsbD 0) zero32))

/-- A READY depth 1 instance with the zero seed, at path `p` and offset `o`, nothing running. -/
def readyAt (p : Word) (o : Fin 33) : State :=
  { State.reset with depth := 1, path := p, nodes := oneLevel p, offset := o, st := .ready }

/-- The command `i` latched in a state, with path operand 1 and the zero seed (10_state.md R41). -/
def latched (i : Instr) (s : State) : State :=
  { s with
    busy := true
    pend := some { word := encode i, argPath := 1#32, seedIn := Vector.replicate 8 0#32 } }

/-- The same instance EXHAUSTED at its last leaf. -/
def exhaustedState : State := { readyAt 1#32 32 with st := .exhausted }

/-- The same instance after an error. -/
def faultState : State := { readyAt 0#32 5 with st := .fault, err := .capacityError }

/-- A READ of 40 in the middle of its byte steps: `r` bytes to move, none moved yet. -/
def reading (p : Word) (o : Fin 33) (r : BitVec 24) : State := { latched (.read 40) (readyAt p o) with rem := r }

/-- An XOR of 2 in the middle of its byte steps, with two bytes in DIN. -/
def xoring (p : Word) (o : Fin 33) (r : BitVec 24) : State :=
  { latched (.xor 2) (readyAt p o) with rem := r, din := [0xFF#8, 0x11#8] }

/-! ## One step of each command -/

/-- 2.2: CREATE 1 in FAULT leaves FAULT, with the path and seed of the latch. -/
theorem test_create : exec (.create 1) (latched (.create 1) faultState) =
    .next { readyAt 1#32 0 with nodes := oneLevel 1#32, hashes := 1 } := rfl

/-- 2.2: CREATE 33 raises CONFIG_ERROR and changes nothing else. -/
theorem test_create_33 : exec (.create 33) (latched (.create 33) (readyAt 0#32 5)) =
    .next { readyAt 0#32 5 with st := .fault, err := .configError } := rfl

/-- V-S1 at depth 1: GOTO 1 from leaf 0 recomputes the one level from the reversed seed; one application of H. -/
theorem test_goto : exec .goto (latched .goto (readyAt 0#32 5)) =
    .next { readyAt 1#32 0 with nodes := (oneLevel 0#32).set 0 (Config.hash (rev zero32)), hashes := 1 } := by
  simp only [exec, execGoto, latched]; rfl

/-- 2.10: GOTO leaves EXHAUSTED. -/
theorem test_goto_exhausted : ∃ t, exec .goto (latched .goto exhaustedState) = .next t ∧ t.st = .ready ∧
    t.offset = 0 ∧ t.path = 1#32 ∧ t.hashes = 0 := ⟨_, rfl, rfl, rfl, rfl, rfl⟩

/-- 2.5: COMPUTE 63 applies no H and changes nothing. -/
theorem test_compute_63 : exec (.compute 63) (latched (.compute 63) (readyAt 0#32 9)) =
    .next (readyAt 0#32 9) := rfl

/-- 2.5: COMPUTE in EXHAUSTED keeps EXHAUSTED and applies H for each level. -/
theorem test_compute_exhausted : ∃ t, exec (.compute 0) (latched (.compute 0) exhaustedState) = .next t ∧
    t.st = .exhausted ∧ t.offset = 32 ∧ t.hashes = 1 := ⟨_, rfl, rfl, rfl, rfl⟩

/-- 2.6: READ 40 at offset 30 starts to move the 2 bytes left in the leaf. -/
theorem test_read_start : exec (.read 40) (latched (.read 40) (readyAt 0#32 30)) =
    .next (reading 0#32 30 2#24) := rfl

/-- 2.6: the last byte of the last leaf goes to KS_OUT and leaves EXHAUSTED with offset 32 and RESULT 1. -/
theorem test_read_last_byte : ∃ t, exec (.read 40) (reading 1#32 31 1#24) = .next t ∧
    t.ksOut = [(Config.hash (rev zero32))[31]] ∧ t.st = .exhausted ∧ t.offset = 32 ∧ t.path = 1#32 ∧
    t.result = 1#32 ∧ t.busy = false := ⟨_, rfl, rfl, rfl, rfl, rfl, rfl, rfl⟩

/-- 2.7: READ_EXACT 64 of a depth 1 instance is satisfiable, and starts to move 64 bytes. -/
theorem test_read_exact_start : exec (.readExact 64) (latched (.readExact 64) (readyAt 0#32 0)) =
    .next { latched (.readExact 64) (readyAt 0#32 0) with rem := 64#24 } := rfl

/-- 2.7: one byte more raises CAPACITY_ERROR before any byte moves. -/
theorem test_read_exact_too_long : exec (.readExact 65) (latched (.readExact 65) (readyAt 0#32 0)) =
    .next { readyAt 0#32 0 with st := .fault, err := .capacityError } := rfl

/-- 2.8: XOR combines the oldest DIN byte with the keystream byte and leaves the rest in DIN. -/
theorem test_xor_byte : ∃ t, exec (.xor 2) (xoring 0#32 3 2#24) = .next t ∧
    t.dout = [0xFF#8 ^^^ (Config.hash zero32)[3]] ∧ t.din = [0x11#8] ∧ t.offset = 4 ∧ t.rem = 1#24 ∧
    t.busy = true := ⟨_, rfl, rfl, rfl, rfl, rfl, rfl⟩

/-- 2.8: XOR 65 of a depth 1 instance consumes nothing. -/
theorem test_xor_too_long : ∃ t, exec (.xor 65) { latched (.xor 65) (readyAt 0#32 0) with din := [1#8] } = .next t ∧
    t.st = .fault ∧ t.err = .capacityError ∧ t.din = [1#8] ∧ t.result = 0#32 := ⟨_, rfl, rfl, rfl, rfl, rfl⟩

/-- R155: the pop of the chunk loop finds no byte after the failed XOR, and the run ends. -/
theorem test_failed_run_stops :
    ∃ t, hostStep { faultState with script := [.popDoutOrStop, .wait, .check] } = .next t ∧ t.script = [] := by
  refine ⟨_, State.stopOnFailure_eq _, ?_⟩
  rw [if_pos ⟨rfl, rfl⟩]
  rfl

/-- 2.9: RESET in any state gives the reset values. -/
theorem test_reset : exec .reset (latched .reset faultState) = .next State.reset := rfl

/-- 2.10: a word that is neither CREATE nor RESET, here the illegal word 0, is ignored in FAULT. -/
theorem test_illegal_in_fault :
    step { faultState with
      busy := true, pend := some { word := 0#32, argPath := 0#32, seedIn := Vector.replicate 8 0#32 } } =
      .next faultState := rfl

/-- 2.10, R187: in UNCONFIGURED the word 0x14 raises ILLEGAL_COMMAND, not NOT_CONFIGURED. -/
theorem test_illegal_first : step (State.reset.withFetchWord 32 0x14) =
    .next { State.reset with st := .fault, err := .illegalCommand } := rfl

/-- The hook runs the word as the first command after reset (log 5): 2.10, READ 0 with no instance. -/
theorem test_fetch_word : step (State.reset.withFetchWord 32 0x4) =
    .next { State.reset with st := .fault, err := .notConfigured } := rfl

/-! ## The small states have the invariants -/

theorem oneLevel_levels (s : State) (h1 : s.seed = zero32) (h2 : s.depth = 1) (h3 : s.nodes = oneLevel s.path) :
    (∀ i, i < s.depth.val → s.levelRight i) ∧ (∀ i, s.depth.val ≤ i → i < 32 → s.nodes[i]? = some zero32) := by
  have hd : s.depth.val = 1 := by rw [h2]; rfl
  constructor
  · intro i hi
    obtain rfl : i = 0 := by omega
    rw [State.levelRight, h3, h1, hd]
    rfl
  · intro i hi h32
    rw [h3, oneLevel, Vector.getElem?_set_ne, Vector.getElem?_replicate, if_pos h32]
    omega

theorem inv_reset : Inv State.reset where
  chain i hi := absurd hi (Nat.not_lt_zero i)
  unused i _ h := by simp [State.reset, h]
  ready h := by cases h
  exhausted h := by cases h
  unconfigured _ := rfl
  latch := rfl
  idle _ := rfl
  fresh _ := rfl
  running h := absurd rfl h
  fifos := ⟨Nat.zero_le _, Nat.zero_le _, Nat.zero_le _⟩

theorem inv_readyAt (p : Word) (o : Fin 33) (ho : o.val ≤ 31) : Inv (readyAt p o) where
  chain := (oneLevel_levels (readyAt p o) rfl rfl rfl).1
  unused := (oneLevel_levels (readyAt p o) rfl rfl rfl).2
  ready _ := ⟨Nat.le_refl 1, ho⟩
  exhausted h := by cases h
  unconfigured h := by cases h
  latch := rfl
  idle _ := rfl
  fresh _ := rfl
  running h := absurd rfl h
  fifos := ⟨Nat.zero_le _, Nat.zero_le _, Nat.zero_le _⟩

theorem inv_exhausted : Inv exhaustedState where
  chain := (oneLevel_levels exhaustedState rfl rfl rfl).1
  unused := (oneLevel_levels exhaustedState rfl rfl rfl).2
  ready h := by cases h
  exhausted _ := ⟨Nat.le_refl 1, rfl, rfl⟩
  unconfigured h := by cases h
  latch := rfl
  idle _ := rfl
  fresh _ := rfl
  running h := absurd rfl h
  fifos := ⟨Nat.zero_le _, Nat.zero_le _, Nat.zero_le _⟩

theorem inv_fault : Inv faultState where
  chain := (oneLevel_levels faultState rfl rfl rfl).1
  unused := (oneLevel_levels faultState rfl rfl rfl).2
  ready h := by cases h
  exhausted h := by cases h
  unconfigured h := by cases h
  latch := rfl
  idle _ := rfl
  fresh _ := rfl
  running h := absurd rfl h
  fifos := ⟨Nat.zero_le _, Nat.zero_le _, Nat.zero_le _⟩

theorem inv_latched (i : Instr) (s : State) (h : Inv s) (hb : s.busy = false) : Inv (latched i s) where
  chain := h.chain
  unused := h.unused
  ready := h.ready
  exhausted := h.exhausted
  unconfigured := h.unconfigured
  latch := rfl
  idle hc := by cases hc
  fresh := h.fresh
  running hr := absurd (h.idle hb) hr
  fifos := h.fifos

theorem inv_reading (p : Word) (o : Fin 33) (r : BitVec 24) (ho : o.val ≤ 31)
    (ha : r.toNat ≤ (readyAt p o).avail) : Inv (reading p o r) where
  chain := (oneLevel_levels (reading p o r) rfl rfl rfl).1
  unused := (oneLevel_levels (reading p o r) rfl rfl rfl).2
  ready _ := ⟨Nat.le_refl 1, ho⟩
  exhausted h := by cases h
  unconfigured h := by cases h
  latch := rfl
  idle h := by cases h
  fresh _ := rfl
  running _ :=
    { st := rfl
      enough := ha
      counted := r.isLt
      latched := ⟨_, .read 40, rfl, by decide, rfl⟩ }
  fifos := ⟨Nat.zero_le _, Nat.zero_le _, Nat.zero_le _⟩

/-- A running command whose channels hold `k`, `i` and `o`, within FIFO_DEPTH, and with an overrun recorded or not. -/
theorem inv_channels (s : State) (h : Inv s) (k i o : List Byte) (b : Bool) (hk : k.length ≤ Config.fifoDepth)
    (hi : i.length ≤ Config.fifoDepth) (ho : o.length ≤ Config.fifoDepth) :
    Inv { s with ksOut := k, din := i, dout := o, ovr := b } where
  chain := h.chain
  unused := h.unused
  ready := h.ready
  exhausted := h.exhausted
  unconfigured := h.unconfigured
  latch := h.latch
  idle := h.idle
  fresh := h.fresh
  running hr := ⟨(h.running hr).st, (h.running hr).enough, (h.running hr).counted, (h.running hr).latched⟩
  fifos := ⟨hk, hi, ho⟩

/-- The host's program and the turns are no part of the invariants. -/
theorem inv_agents (s : State) (h : Inv s) (ops : List HostOp) (ts : List Turn) :
    Inv { s with script := ops, turns := ts } where
  chain := h.chain
  unused := h.unused
  ready := h.ready
  exhausted := h.exhausted
  unconfigured := h.unconfigured
  latch := h.latch
  idle := h.idle
  fresh := h.fresh
  running hr := ⟨(h.running hr).st, (h.running hr).enough, (h.running hr).counted, (h.running hr).latched⟩
  fifos := h.fifos

theorem fifoDepth_pos : 1 ≤ Config.fifoDepth := Nat.le_add_left 1 _

/-- An XOR in the middle of its byte steps, with one byte in DIN (FIFO_DEPTH may be 1). -/
def xoring1 (p : Word) (o : Fin 33) (r : BitVec 24) : State :=
  { latched (.xor 2) (readyAt p o) with rem := r, din := [0xFF#8] }

theorem inv_xoring1 (p : Word) (o : Fin 33) (r : BitVec 24) (ho : o.val ≤ 31)
    (ha : r.toNat ≤ (readyAt p o).avail) : Inv (xoring1 p o r) where
  chain := (oneLevel_levels (xoring1 p o r) rfl rfl rfl).1
  unused := (oneLevel_levels (xoring1 p o r) rfl rfl rfl).2
  ready _ := ⟨Nat.le_refl 1, ho⟩
  exhausted h := by cases h
  unconfigured h := by cases h
  latch := rfl
  idle h := by cases h
  fresh _ := rfl
  running _ :=
    { st := rfl
      enough := ha
      counted := r.isLt
      latched := ⟨_, .xor 2, rfl, by decide, rfl⟩ }
  fifos := ⟨Nat.zero_le _, fifoDepth_pos, Nat.zero_le _⟩

/-! ## Witnesses: the hypotheses of each statement of Certificates/Slice0/Obligations.lean can be met -/

/-- A state in which only the host's program and the turns are set. -/
def withAgents (s : State) (ops : List HostOp) (ts : List Turn) : State := { s with script := ops, turns := ts }

/-- A latch that holds a word with the zero operands. -/
def latchedWord (v : Word) (s : State) : State :=
  { s with busy := true, pend := some { word := v, argPath := 0#32, seedIn := Vector.replicate 8 0#32 } }

theorem inv_latchedWord (v : Word) (s : State) (h : Inv s) (hb : s.busy = false) : Inv (latchedWord v s) where
  chain := h.chain
  unused := h.unused
  ready := h.ready
  exhausted := h.exhausted
  unconfigured := h.unconfigured
  latch := rfl
  idle hc := by cases hc
  fresh := h.fresh
  running hr := absurd (h.idle hb) hr
  fifos := h.fifos

theorem inv_ready0 : Inv (readyAt 0#32 0) := inv_readyAt _ _ (by decide)

theorem readyToServe (p : Word) (o : Fin 33) (ho : o.val ≤ 31) (ops : List HostOp) (ts : List Turn) :
    ReadyToServe (withAgents (readyAt p o) ops ts) :=
  ⟨inv_agents _ (inv_readyAt p o ho) ops ts, rfl, rfl, rfl, rfl, rfl⟩

theorem canServe_ready (p : Word) (o : Fin 33) (ho : o.val ≤ 31) (ops : List HostOp) (ts : List Turn) :
    CanServe (withAgents (readyAt p o) ops ts) :=
  ⟨inv_agents _ (inv_readyAt p o ho) ops ts, .inl rfl, rfl, rfl, rfl, rfl⟩

theorem canServe_exhausted (ops : List HostOp) (ts : List Turn) : CanServe (withAgents exhaustedState ops ts) :=
  ⟨inv_agents _ inv_exhausted ops ts, .inr rfl, rfl, rfl, rfl, rfl⟩

theorem witness_ResetCommandAndInputGiveResetState :
    (withAgents faultState [] [.hardwareReset, .engine]).turns = .hardwareReset :: [.engine] ∧
    (4092 < 4096 ∧ 4092 % 4 = 0) := ⟨rfl, by decide⟩

theorem witness_DecodeOfEncodeIsTheInstruction : (Instr.create 63).WellFormed ∧ Instr.goto.WellFormed ∧
    (Instr.compute 63).WellFormed ∧ (Instr.read 16777215).WellFormed ∧ (Instr.readExact 0).WellFormed ∧
    (Instr.xor 16777215).WellFormed ∧ Instr.reset.WellFormed := by decide

theorem witness_EncodeOfDecodeIsTheWord : decode 0xFFFFFF04#32 = .ok (.read 16777215) ∧
    decode 0x00003F01#32 = .ok (.create 63) ∧ decode 0x00000007#32 = .ok .reset := by decide

theorem witness_StepRunsTheDecodedInstruction :
    (∃ p, (latched .goto (readyAt 0#32 0)).engineMoves ∧ (latched .goto (readyAt 0#32 0)).busy = true ∧
      (latched .goto (readyAt 0#32 0)).pend = some p ∧ decode p.word = .ok .goto) ∧
    decodeTableWord 32 0x401 = some (.create 4) :=
  ⟨⟨_, .inl rfl, rfl, rfl, by decide⟩, by decide⟩

theorem witness_DispatchOrdersItsChecks :
    (∃ s p, Inv s ∧ s.engineMoves ∧ s.busy = true ∧ s.pend = some p ∧ s.st = .fault ∧
      (∀ d, decode p.word ≠ .ok (.create d)) ∧ decode p.word ≠ .ok .reset) ∧
    (∃ s p, Inv s ∧ s.engineMoves ∧ s.busy = true ∧ s.pend = some p ∧ s.st ≠ .fault ∧
      (∀ i, decode p.word ≠ .ok i)) ∧
    (∃ s p i, Inv s ∧ s.engineMoves ∧ s.busy = true ∧ s.pend = some p ∧ decode p.word = .ok i ∧
      s.st = .unconfigured ∧ NeedsInstance i) ∧
    (∃ s p i, Inv s ∧ s.engineMoves ∧ s.busy = true ∧ s.pend = some p ∧ decode p.word = .ok i ∧ s.st = .ready) := by
  have e4 : decode (encode (.read 0)) = .ok (.read 0) := by decide
  have e14 : decode 0x00000014#32 = .error .reserved7to4 := by decide
  refine ⟨⟨latched (.read 0) faultState, _, inv_latched _ _ inv_fault rfl, .inl rfl, rfl, rfl, rfl, ?_, ?_⟩,
    ⟨latchedWord 0x00000014#32 State.reset, _, inv_latchedWord _ _ inv_reset rfl, .inl rfl, rfl, rfl, nofun, ?_⟩,
    ⟨latched (.read 0) State.reset, _, _, inv_latched _ _ inv_reset rfl, .inl rfl, rfl, rfl, e4, rfl,
      .inr (.inr (.inl ⟨0, rfl⟩))⟩,
    ⟨latched (.read 0) (readyAt 0#32 0), _, _, inv_latched _ _ inv_ready0 rfl, .inl rfl, rfl, rfl, e4, rfl⟩⟩
  · intro d h; rw [e4] at h; cases h
  · intro h; rw [e4] at h; cases h
  · intro i h; rw [e14] at h; cases h

theorem witness_IdleEngineChangesNothing : State.reset.engineMoves ∧ State.reset.busy = false := ⟨.inl rfl, rfl⟩

theorem witness_KeystreamCommandsNeedAnInstance :
    (∃ s p i, Inv s ∧ s.pend = some p ∧ NeedsInstance i ∧ s.st = .unconfigured) ∧
    (∃ s p i, Inv s ∧ s.pend = some p ∧ NeedsInstance i ∧ s.st = .fault) :=
  ⟨⟨latched .goto State.reset, _, .goto, inv_latched _ _ inv_reset rfl, rfl, .inl rfl, rfl⟩,
    ⟨latched (.xor 1) faultState, _, .xor 1, inv_latched _ _ inv_fault rfl, rfl,
      .inr (.inr (.inr (.inr ⟨1, rfl⟩))), rfl⟩⟩

theorem witness_ErrorsArePrecise :
    (∃ s t : State, step s = .next t ∧ t.st = .fault ∧ s.st ≠ .fault) ∧
    (∃ s t : State, step s = .next t ∧ t.st = .fault ∧ s.st = .fault ∧ t.err ≠ s.err) ∧
    (∃ s t : State, step s = .next t ∧ t.st = .fault ∧ s.st ≠ .fault ∧ Inv s ∧ s.rem ≠ 0#24) := by
  refine ⟨⟨latched .goto State.reset, _, rfl, rfl, nofun⟩, ⟨latched (.create 33) faultState, _, rfl, rfl, rfl, nofun⟩,
    ⟨{ reading 0#32 3 1#24 with ksOut := [], din := [], dout := [], ovr := true }, _, rfl, rfl, nofun, ?_, by decide⟩⟩
  exact inv_channels _ (inv_reading _ _ _ (by decide) (by decide)) _ _ _ _ (Nat.zero_le _) (Nat.zero_le _)
    (Nat.zero_le _)

theorem witness_OnlyCreateOrResetLeavesFault :
    (∃ s t : State, Inv s ∧ s.st = .fault ∧ step s = .next t ∧ t.st = .ready) ∧
    (∃ s t : State, Inv s ∧ s.st = .fault ∧ step s = .next t ∧ t.st = .unconfigured) ∧
    (∃ (s : State) (p : Pending), s.st = .fault ∧ s.engineMoves ∧ s.busy = true ∧ s.pend = some p ∧ decode p.word = .ok (.create 33)) ∧
    (∃ (s : State) (p : Pending), s.st = .fault ∧ s.engineMoves ∧ s.busy = true ∧ s.pend = some p ∧ decode p.word = .ok (.create 0)) :=
  ⟨⟨latched (.create 1) faultState, _, inv_latched _ _ inv_fault rfl, rfl, rfl, rfl⟩,
    ⟨latched .reset faultState, _, inv_latched _ _ inv_fault rfl, rfl, rfl, rfl⟩,
    ⟨latched (.create 33) faultState, _, rfl, .inl rfl, rfl, rfl, by decide⟩,
    ⟨latched (.create 0) faultState, _, rfl, .inl rfl, rfl, rfl, by decide⟩⟩

theorem witness_ErrcodeChangesOnlyByErrorCreateOrReset :
    (∃ s t : State, step s = .next t ∧ t.err ≠ s.err ∧ t.err ≠ .none) ∧
    (∃ s t : State, step s = .next t ∧ t.err ≠ s.err ∧ t.err = .none) :=
  ⟨⟨latched .goto State.reset, _, rfl, nofun, nofun⟩, ⟨latched (.create 1) faultState, _, rfl, nofun, rfl⟩⟩

theorem witness_SeedAndDepthChangeOnlyByCreateOrReset :
    (∃ s t : State, step s = .next t ∧ t.depth ≠ s.depth ∧ t.st = .ready) ∧
    (∃ s t : State, step s = .next t ∧ t.depth ≠ s.depth ∧ t.st = .unconfigured) :=
  ⟨⟨latched (.create 2) faultState, _, rfl, by decide, rfl⟩, ⟨latched .reset faultState, _, rfl, by decide, rfl⟩⟩

theorem witness_StepKeepsTheInvariants : ∃ s t : State, Inv s ∧ step s = .next t ∧ t.st = .ready :=
  ⟨latched (.create 1) faultState, _, inv_latched _ _ inv_fault rfl, rfl, rfl⟩

theorem witness_ChainIsRightWheneverTheEngineIsIdle :
    ∃ s t : State, Inv s ∧ runSteps 1 s = .next t ∧ t.busy = false ∧ HasInstance t :=
  ⟨latched (.create 1) faultState, _, inv_latched _ _ inv_fault rfl, rfl, rfl, .inl rfl⟩

theorem witness_OnlyUndefinedHostAccessesStop :
    (∃ s : State, Inv s ∧ ∀ ts, s.turns ≠ .host :: ts) ∧
    (∃ s : State, Inv s ∧ step s = .fault .outsideWindow) ∧
    (∃ s : State, Inv s ∧ step s = .refused .undefinedAccess) := by
  refine ⟨⟨latched .goto (readyAt 0#32 0), inv_latched _ _ inv_ready0 rfl, fun _ => nofun⟩,
    ⟨_, inv_agents _ inv_reset [.read (Config.engineBase + 4096) 4] [.host], ?_⟩,
    ⟨_, inv_agents _ inv_reset [.read Config.engineBase 2] [.host], ?_⟩⟩
  · rw [step_host_turn _ _ rfl]
    simp only [hostStep, State.memRead, windowAccess_outside _ _ (Or.inr (Nat.le_refl _))]
  · rw [step_host_turn _ _ rfl]
    simp only [hostStep, State.memRead,
      windowAccess_undefined _ 2 (Nat.le_refl _) (Nat.lt_add_of_pos_right (by decide)) (.inl (by decide))]

theorem witness_NoOverrunUnderTheHostProtocol :
    ∃ s t : State, s.ovr = false ∧ s.hostKeepsProtocol ∧ step s = .next t ∧ s.busy = true := by
  refine ⟨withAgents (latched .goto (readyAt 0#32 0)) [writeAt 0x000 0x00000007#32] [.host], State.resetEngine
      (State.opDone { withAgents (latched .goto (readyAt 0#32 0)) [writeAt 0x000 0x00000007#32] [.host] with turns := [] }),
    rfl, ?_, ?_, rfl⟩
  · intro addr width v rest h _ _; cases h; rfl
  · rw [step_host_turn _ [] rfl]
    exact hostStep_writeAt _ 0x000 0x00000007#32 [] rfl (by decide) (by decide)

theorem witness_CreateBuildsTheInstance :
    (∃ s p, State.pend s = some p ∧ 1 ≤ 1 ∧ 1 ≤ 32) ∧ (∃ s p, State.pend s = some p ∧ 1 ≤ 32 ∧ 32 ≤ 32) :=
  ⟨⟨latched (.create 1) State.reset, _, rfl, by decide, by decide⟩,
    ⟨latched (.create 32) faultState, _, rfl, by decide, by decide⟩⟩

theorem witness_CreateOfBadDepthRaisesConfigError :
    ∃ p, (latched (.create 33) State.reset).pend = some p ∧ (33 = 0 ∨ 33 ≤ 33) := ⟨_, rfl, .inr (Nat.le_refl _)⟩

/-- A right chain, the slots COMPUTE 0 writes, and a level below the slot 0. -/
theorem witness_ComputeLoopWritesItsLevels :
    (∀ i, i < 0 → i < (readyAt 0#32 0).depth.val → (readyAt 0#32 0).levelRight i) ∧
    (0 < (readyAt 0#32 0).depth.val ∧ (readyAt 0#32 0).seed = zero32) ∧
    (∀ i, i < 1 → i < (readyAt 0#32 0).depth.val → (readyAt 0#32 0).levelRight i) :=
  ⟨fun _ h => absurd h (Nat.not_lt_zero _), ⟨by decide, rfl⟩, fun i _ h => inv_ready0.chain i h⟩

theorem witness_ComputeChangesNoValue :
    (∃ s, Inv s ∧ HasInstance s ∧ s.st = .ready) ∧ (∃ s, Inv s ∧ HasInstance s ∧ s.st = .exhausted) :=
  ⟨⟨_, inv_ready0, .inl rfl, rfl⟩, ⟨_, inv_exhausted, .inr rfl, rfl⟩⟩

theorem witness_GotoMovesWithPrefixReuse :
    (∃ s p, Inv s ∧ HasInstance s ∧ s.pend = some p ∧ divergence s.path p.argPath s.depth.val = 0) ∧
    (∃ s p, Inv s ∧ HasInstance s ∧ s.pend = some p ∧ divergence s.path p.argPath s.depth.val = s.depth.val) :=
  ⟨⟨_, _, inv_latched .goto _ inv_ready0 rfl, .inl rfl, rfl, by decide⟩,
    ⟨_, _, inv_latched .goto _ inv_exhausted rfl, .inr rfl, rfl, by decide⟩⟩

theorem witness_GotoChainEqualsFreshInstance :
    ∃ (s t s' t' : State) (p p' : Pending), Inv s ∧ HasInstance s ∧ s.pend = some p ∧ s'.pend = some p' ∧
      p'.argPath = p.argPath ∧ seedOfWords p'.seedIn = s.seed ∧ exec .goto s = .next t ∧
      exec (.create s.depth.val) s' = .next t' :=
  ⟨latched .goto (readyAt 0#32 0), _, latched (.create 1) State.reset, _, _, _, inv_latched _ _ inv_ready0 rfl,
    .inl rfl, rfl, rfl, rfl, by decide, rfl, rfl⟩

/-- Level 0 decides, no level decides, and a path that differs above depth. -/
theorem witness_DivergenceIsTheFirstDifferingLevel :
    divergence 0#32 8#32 4 < 4 ∧ divergence 5#32 5#32 4 = 4 ∧
    (∃ k, 4 ≤ k ∧ k < 32 ∧ (0x10#32).getLsbD k ≠ (0#32).getLsbD k) ∧ lo32 0x7FFFFFFF#32 < 32 ∧
    (0x7FFFFFFF#32).getLsbD 31 = false :=
  ⟨by decide, by decide, ⟨4, by decide, by decide, by decide⟩, by decide, by decide⟩

theorem witness_SequentialAdvanceCost :
    0#32 &&& maskOf 1 ≠ maskOf 1 ∧ 0xFFFFFFFE#32 &&& maskOf 32 ≠ maskOf 32 ∧ 7#32 &&& maskOf 4 = maskOf 3 := by decide

theorem witness_MaskSelectsTheLeafIndex : (0 : Nat) ≤ 32 ∧ (32 : Nat) ≤ 32 := by decide

theorem witness_ZeroLengthDataCommandsReturnZero :
    (∃ s, Inv s ∧ HasInstance s ∧ s.rem = 0#24 ∧ s.st = .ready) ∧
    (∃ s, Inv s ∧ HasInstance s ∧ s.rem = 0#24 ∧ s.st = .exhausted) :=
  ⟨⟨_, inv_latched (.read 0) _ inv_ready0 rfl, .inl rfl, rfl, rfl⟩,
    ⟨_, inv_latched (.xor 0) _ inv_exhausted rfl, .inr rfl, rfl, rfl⟩⟩

theorem witness_ReadStartsWithinTheLeaf : ∃ s, Inv s ∧ s.st = .ready ∧ s.rem = 0#24 ∧ 1 ≤ 1 :=
  ⟨_, inv_latched (.read 1) _ (inv_readyAt 0#32 31 (by decide)) rfl, rfl, rfl, by decide⟩

theorem witness_ExactPullStarts :
    ∃ s, Inv s ∧ s.st = .ready ∧ s.rem = 0#24 ∧ 1 ≤ 64 ∧ 64 < 2 ^ 24 ∧ 64 ≤ s.avail :=
  ⟨_, inv_latched (.readExact 64) _ inv_ready0 rfl, rfl, rfl, by decide, by decide, by decide⟩

theorem witness_UnsatisfiablePullsRaiseCapacityError :
    (∃ s, Inv s ∧ HasInstance s ∧ s.rem = 0#24 ∧ s.st = .exhausted) ∧
    (∃ s, Inv s ∧ HasInstance s ∧ s.rem = 0#24 ∧ 1 ≤ 65 ∧ s.avail < 65) :=
  ⟨⟨_, inv_latched (.read 1) _ inv_exhausted rfl, .inr rfl, rfl, rfl⟩,
    ⟨_, inv_latched (.xor 65) _ inv_ready0 rfl, .inl rfl, rfl, by decide, by decide⟩⟩

theorem witness_AvailIsBounded :
    (∃ s, Inv s ∧ s.st = .ready) ∧ (∃ s : State, s.st ≠ .exhausted) ∧ (∃ s : State, s.st = .exhausted) :=
  ⟨⟨_, inv_readyAt 1#32 31 (by decide), rfl⟩, ⟨State.reset, nofun⟩, ⟨exhaustedState, rfl⟩⟩

/-- Within the leaf, to the next leaf, to the end of the last leaf, more bytes to move and the last one, and a full
KS_OUT. -/
theorem witness_KeystreamByteStepDeliversAndAdvances :
    (∃ s, Inv s ∧ s.rem ≠ 0#24 ∧ s.rem ≠ 1#24 ∧ s.ksOut.length < Config.fifoDepth ∧ s.offset.val < 31) ∧
    (∃ s, Inv s ∧ s.rem = 1#24 ∧ s.ksOut.length < Config.fifoDepth ∧ s.offset.val = 31 ∧
      s.path &&& s.mask ≠ s.mask) ∧
    (∃ s, Inv s ∧ s.rem = 1#24 ∧ s.ksOut.length < Config.fifoDepth ∧ s.offset.val = 31 ∧
      s.path &&& s.mask = s.mask) ∧
    (∃ s, Inv s ∧ s.rem ≠ 0#24 ∧ s.ksOut.length = Config.fifoDepth) := by
  refine ⟨⟨reading 0#32 30 2#24, inv_reading _ _ _ (by decide) (by decide), by decide, by decide, fifoDepth_pos,
      by decide⟩,
    ⟨reading 0#32 31 1#24, inv_reading _ _ _ (by decide) (by decide), rfl, fifoDepth_pos, rfl, by decide⟩,
    ⟨reading 1#32 31 1#24, inv_reading _ _ _ (by decide) (by decide), rfl, fifoDepth_pos, rfl, by decide⟩,
    ⟨_, inv_channels _ (inv_reading 0#32 3 2#24 (by decide) (by decide))
      (List.replicate Config.fifoDepth 0#8) [] [] false ?_ (Nat.zero_le _) (Nat.zero_le _), by decide, ?_⟩⟩ <;> simp

theorem witness_XorByteStepCombinesAndAdvances :
    (∃ s x rest, Inv s ∧ s.rem ≠ 0#24 ∧ s.din = x :: rest ∧ s.dout.length < Config.fifoDepth) ∧
    (∃ s, Inv s ∧ s.rem ≠ 0#24 ∧ s.din = []) ∧
    (∃ s, Inv s ∧ s.rem ≠ 0#24 ∧ s.dout.length = Config.fifoDepth) := by
  refine ⟨⟨xoring1 1#32 31 1#24, _, _, inv_xoring1 _ _ _ (by decide) (by decide), by decide, rfl, fifoDepth_pos⟩,
    ⟨_, inv_channels _ (inv_xoring1 0#32 3 2#24 (by decide) (by decide)) [] [] [] false (Nat.zero_le _)
      (Nat.zero_le _) (Nat.zero_le _), by decide, rfl⟩,
    ⟨_, inv_channels _ (inv_xoring1 0#32 3 2#24 (by decide) (by decide)) [] []
      (List.replicate Config.fifoDepth 0#8) false (Nat.zero_le _) (Nat.zero_le _) ?_, by decide, ?_⟩⟩ <;> simp

/-- Each command at a leaf advance, and at the end of the last leaf. -/
theorem witness_ByteStepHashCost :
    (∃ s, Inv s ∧ s.rem ≠ 0#24 ∧ s.ksOut.length < Config.fifoDepth ∧ s.offset.val = 31 ∧ s.path &&& s.mask ≠ s.mask) ∧
    (∃ s, Inv s ∧ s.rem ≠ 0#24 ∧ s.ksOut.length < Config.fifoDepth ∧ s.offset.val = 31 ∧ s.path &&& s.mask = s.mask) ∧
    (∃ s, Inv s ∧ s.rem ≠ 0#24 ∧ s.din ≠ [] ∧ s.dout.length < Config.fifoDepth ∧ s.offset.val = 31 ∧
      s.path &&& s.mask ≠ s.mask) :=
  ⟨⟨reading 0#32 31 1#24, inv_reading _ _ _ (by decide) (by decide), by decide, fifoDepth_pos, rfl, by decide⟩,
    ⟨reading 1#32 31 1#24, inv_reading _ _ _ (by decide) (by decide), by decide, fifoDepth_pos, rfl, by decide⟩,
    ⟨xoring1 0#32 31 1#24, inv_xoring1 _ _ _ (by decide) (by decide), by decide, nofun, fifoDepth_pos, rfl,
      by decide⟩⟩

/-- A pull of all 64 bytes, and one of none, in READY and in EXHAUSTED. -/
theorem witness_PullDeliversExactlyItsBytes :
    (∃ s rest ts, CanServe s ∧ 64 < 2 ^ 24 ∧ 64 = s.avail ∧ s.script = pull 64 ++ rest ∧
      s.turns = pullTurns 64 ++ ts) ∧
    (∃ s rest ts, CanServe s ∧ 0 < 2 ^ 24 ∧ 0 < s.avail ∧ s.script = pull 0 ++ rest ∧
      s.turns = pullTurns 0 ++ ts) ∧
    (∃ s rest ts, CanServe s ∧ 0 < 2 ^ 24 ∧ 0 = s.avail ∧ s.script = pull 0 ++ rest ∧
      s.turns = pullTurns 0 ++ ts) :=
  ⟨⟨_, [], [], canServe_ready 0#32 0 (by decide) (pull 64 ++ []) (pullTurns 64 ++ []), by decide, by decide,
      rfl, rfl⟩,
    ⟨_, [], [], canServe_ready 1#32 31 (by decide) (pull 0 ++ []) (pullTurns 0 ++ []), by decide, by decide,
      rfl, rfl⟩,
    ⟨_, [], [], canServe_exhausted (pull 0 ++ []) (pullTurns 0 ++ []), by decide, by decide, rfl, rfl⟩⟩

theorem witness_ReadDeliversUpToTheLeafEnd :
    ∃ s rest ts, ReadyToServe s ∧ 1 ≤ 40 ∧ 40 < 2 ^ 24 ∧ 2 = min 40 (32 - s.offset.val) ∧
      s.script = readServed 40 2 ++ rest ∧ s.turns = pullTurns 2 ++ ts :=
  ⟨_, [], [], readyToServe 0#32 30 (by decide) (readServed 40 2 ++ []) (pullTurns 2 ++ []), by decide, by decide,
    by decide, rfl, rfl⟩

theorem witness_XorPassCombinesInputWithKeystream :
    ∃ s rest ts, CanServe s ∧ [7#8, 8#8].length < 2 ^ 24 ∧ [7#8, 8#8].length ≤ s.avail ∧
      s.script = chunkPassOverlapped [7#8, 8#8] ++ rest ∧ s.turns = passTurns [7#8, 8#8].length ++ ts :=
  ⟨_, [], [], canServe_ready 0#32 31 (by decide) (chunkPassOverlapped [7#8, 8#8] ++ [])
    (passTurns [7#8, 8#8].length ++ []), by decide, by decide, rfl, rfl⟩

/-- An input as long as the instance at leaf 1 of depth 1 can serve. -/
theorem witness_XorIsItsOwnInverse :
    (1 ≤ 1 ∧ 1 < 2 ^ 24) ∧ (1 ≤ 16777215 ∧ 16777215 < 2 ^ 24) ∧
    (List.replicate 32 7#8).length ≤ ((maskOf 1).toNat - (1#32 &&& maskOf 1).toNat + 1) * 32 ∧
    State.reset.busy = false ∧ faultState.busy = false ∧ State.reset.log = [] ∧ faultState.log = [] :=
  ⟨by decide, by decide, by decide, rfl, rfl, rfl, rfl⟩

/-- A READ cut at the leaf end, one of 0, a READ_EXACT to the end of the last leaf, then both of 0 in EXHAUSTED. -/
theorem witness_SplitPullsEqualOnePull :
    ∃ s cs, CanServe s ∧ ArePulls s 0 cs ∧ 34 = (cs.map Prod.snd).sum ∧ 34 < 2 ^ 24 := by
  refine ⟨_, [(.read 40, 2), (.read 0, 0), (.readExact 32, 32), (.readExact 0, 0), (.read 0, 0)],
    canServe_ready 0#32 30 (by decide) [] [], ?_, by decide, by decide⟩
  exact ⟨⟨by decide, by decide, .inr ⟨40, rfl, by decide⟩⟩, ⟨by decide, by decide, .inr ⟨0, rfl, by decide⟩⟩,
    ⟨by decide, by decide, .inl rfl⟩, ⟨by decide, by decide, .inl rfl⟩,
    ⟨by decide, by decide, .inr ⟨0, rfl, by decide⟩⟩, trivial⟩

theorem witness_SplitXorsEqualOneXor :
    ∃ (s : State) (cs ds : List (List Byte)), CanServe s ∧ cs.flatten = ds.flatten ∧
      (∀ c ∈ cs, c.length < 2 ^ 24) ∧ (∀ c ∈ ds, c.length < 2 ^ 24) ∧ cs.flatten.length ≤ s.avail :=
  ⟨_, [[1#8, 2#8], [], [3#8]], [[1#8, 2#8, 3#8], []], canServe_ready 0#32 31 (by decide) [] [], by decide,
    by decide, by decide, by decide⟩

/-- An input as long as LAST_BYTE, and a chunk of one byte. -/
theorem witness_CipherLoopProcessesTheWholeInput :
    ∃ s, ReadyToServe s ∧ s.path &&& s.mask = 0#32 ∧ s.offset.val = 0 ∧ 1 ≤ 1 ∧ 1 < 2 ^ 24 ∧
      (List.replicate 32 7#8).length ≤ (2 ^ s.depth.val - 1) * 32 :=
  ⟨_, readyToServe 0x10#32 0 (by decide) [] [], by decide, rfl, by decide, by decide, by decide⟩

/-- One byte more than the instance can deliver: after a chunk in READY, and at once in EXHAUSTED. -/
theorem witness_FailedRunKeepsWholeChunks :
    (∃ s, CanServe s ∧ 1 ≤ 1 ∧ 1 < 2 ^ 24 ∧ s.avail = 1 ∧ s.avail < [7#8, 8#8].length) ∧
    (∃ s, CanServe s ∧ [7#8].length < 2 ^ 24 ∧ s.avail < [7#8].length ∧ [7#8].length ≤ Config.fifoDepth) :=
  ⟨⟨_, canServe_ready 1#32 31 (by decide) [] [], by decide, by decide, by decide, by decide⟩,
    ⟨_, canServe_exhausted [] [], by decide, by decide, fifoDepth_pos⟩⟩

theorem witness_CmdWriteIssuesOrOverruns :
    State.reset.busy = false ∧ ((latched .goto faultState).busy = true ∧ 0x00000008#32 ≠ 0x00000007#32) :=
  ⟨rfl, rfl, by decide⟩

theorem witness_ResetWrittenWhileBusyTakesEffect : (reading 0#32 3 2#24).busy = true := rfl

/-- Boundary offsets of the ignored writes: the register before ARG_PATH, the words around SEED_IN, the last word. -/
theorem witness_WritesStoreOrAreIgnored :
    (0x004 % 4 = 0 ∧ 0x004 ≠ 0x000 ∧ 0x004 ≠ 0x008 ∧ 0x004 < 0x040) ∧ (0x03C % 4 = 0 ∧ 0x03C < 0x040) ∧
    (0x060 % 4 = 0 ∧ 0x060 ≤ 0x060) ∧ (0xFFC < 4096 ∧ 0xFFC % 4 = 0 ∧ 0x060 ≤ 0xFFC) := by decide

/-- Boundary offsets of the reads: SEED_IN and both reserved ranges, the last NODE word. -/
theorem witness_RegistersReadAsSpecified :
    State.reset.busy = false ∧ (0x028 < 4096 ∧ 0x028 % 4 = 0 ∧ 0x028 < 0x400) ∧ (0x3FC % 4 = 0 ∧ 0x3FC < 0x400) ∧
    (0x800 < 4096 ∧ 0x800 % 4 = 0) ∧ (0xFFC < 4096 ∧ 0xFFC % 4 = 0) ∧
    0x400 + 32 * (31 : Fin 32).val + 4 * (7 : Fin 8).val = 0x7FC := ⟨rfl, by decide⟩

theorem witness_BusyReadsExactWhereTheSpecSaysSo :
    (reading 0#32 3 2#24).busy = true ∧ (0x028 < 4096 ∧ 0x028 % 4 = 0 ∧ 0x028 < 0x400) ∧
    (0x800 < 4096 ∧ 0x800 % 4 = 0) := ⟨rfl, by decide⟩

theorem witness_UnalignedOrNarrowAccessesAreRefused :
    (Config.engineBase ≤ Config.engineBase ∧ Config.engineBase < Config.engineBase + 4096 ∧ 2 ≠ 4) ∧
    (Config.engineBase ≤ Config.engineBase + 4095 ∧ Config.engineBase + 4095 < Config.engineBase + 4096 ∧
      (Config.engineBase + 4095) % 4 ≠ 0) := by
  have hb : Config.engineBase % 4 = 0 := by unfold Config.engineBase; omega
  omega

theorem witness_RunningCommandIgnoresLaterOperandWrites :
    (∃ (s t : State) (p : Pending), s.busy = true ∧ s.pend = some p ∧ decode p.word ≠ .ok .reset ∧
      engineStep s = .next t) ∧
    (∃ (s : State) (p : Pending), s.busy = true ∧ s.pend = some p ∧ decode p.word = .ok .reset) ∧
    State.reset.busy = false := by
  have e : decode (encode .goto) = .ok .goto := by decide
  refine ⟨⟨latched .goto (readyAt 0#32 0), _, _, rfl, rfl, ?_, rfl⟩,
    ⟨latched .reset (readyAt 0#32 0), _, rfl, rfl, by decide⟩, rfl⟩
  intro h
  rw [e] at h
  cases h

theorem witness_SeedCannotBeReadBack :
    ∃ s t t' : State, hostStep s = .next t ∧
      hostStep { s with seed := specSeed, seedIn := Vector.replicate 8 1#32 } = .next t' := by
  refine ⟨withAgents (readyAt 0#32 0) [writeAt 0x000 0x00000002#32] [], _, _,
    hostStep_writeAt _ 0x000 _ _ rfl (by decide) (by decide), hostStep_writeAt _ 0x000 _ _ rfl (by decide) (by decide)⟩

/-- Two states that differ only in what no register shows. -/
theorem witness_WindowShowsTheInstance :
    ∃ s t : State, s.busy = false ∧ t.busy = false ∧ (∀ r : Reg, (s.readReg r).1 = (t.readReg r).1) ∧
      s.seed ≠ t.seed := by
  refine ⟨{ State.reset with seed := specSeed }, State.reset, rfl, rfl, fun r => ?_, by decide⟩
  rw [State.readReg_quiet _ _ rfl, State.readReg_quiet _ _ rfl]
  cases r <;> rfl

theorem witness_SetSeedStoresTheSeed :
    ∃ s : State, s.script = setSeed specSeed ++ [.wait] ∧ s.turns = List.replicate 8 .host :=
  ⟨withAgents State.reset (setSeed specSeed ++ [.wait]) (List.replicate 8 .host), rfl, rfl⟩

theorem witness_BootSequenceCreatesAnInstance :
    ∃ s : State, 1 ≤ 32 ∧ 32 ≤ 32 ∧ s.busy = false ∧ s.script = createP 32 0xFFFFFFFF#32 specSeed ++ [] ∧
      s.turns = createTurns :=
  ⟨withAgents faultState (createP 32 0xFFFFFFFF#32 specSeed ++ []) createTurns, by decide, by decide, rfl, rfl, rfl⟩

theorem witness_ChannelsAreBoundedFifos :
    (∃ s : State, s.script = [.push 1#8] ∧ s.din.length < Config.fifoDepth) ∧
    (∃ s : State, s.script = [.push 1#8] ∧ s.din.length = Config.fifoDepth) ∧
    (∃ s : State, s.script = [.popKs] ∧ s.ksOut = [1#8]) ∧ (∃ s : State, s.script = [.popKs] ∧ s.ksOut = []) ∧
    (∃ s : State, s.script = [.popDout] ∧ s.dout = [1#8]) ∧ (∃ s : State, s.script = [.popDout] ∧ s.dout = []) ∧
    (∃ s : State, s.script = [.pushOrStop 1#8] ∧ s.din.length < Config.fifoDepth) ∧
    (∃ s : State, s.script = [.popDoutOrStop] ∧ s.dout = [1#8]) :=
  ⟨⟨withAgents State.reset [.push 1#8] [], rfl, fifoDepth_pos⟩,
    ⟨{ State.reset with script := [.push 1#8], din := List.replicate Config.fifoDepth 0#8 }, rfl, by simp⟩,
    ⟨{ State.reset with script := [.popKs], ksOut := [1#8] }, rfl, rfl⟩, ⟨withAgents State.reset [.popKs] [], rfl, rfl⟩,
    ⟨{ State.reset with script := [.popDout], dout := [1#8] }, rfl, rfl⟩,
    ⟨withAgents State.reset [.popDout] [], rfl, rfl⟩, ⟨withAgents State.reset [.pushOrStop 1#8] [], rfl, fifoDepth_pos⟩,
    ⟨{ State.reset with script := [.popDoutOrStop], dout := [1#8] }, rfl, rfl⟩⟩

theorem witness_WaitAndCheckFollowStatus :
    (withAgents (latched .goto faultState) [.wait] []).script = [.wait] ∧
    ((withAgents faultState [.check] []).script = [.check] ∧ faultState.busy = false) ∧
    ((withAgents faultState [.popDoutOrStop] []).script = [.popDoutOrStop] ∧ faultState.dout = []) ∧
    (∃ s : State, s.script = [.pushOrStop 1#8] ∧ s.din.length = Config.fifoDepth) :=
  ⟨rfl, ⟨rfl, rfl⟩, ⟨rfl, rfl⟩,
    ⟨{ State.reset with script := [.pushOrStop 1#8], din := List.replicate Config.fifoDepth 0#8 }, rfl, by simp⟩⟩

/-- An input as long as LAST_BYTE of a depth 1 instance at leaf 0, and one as long as leaf 1. -/
theorem witness_CapacityCheckAdmitsOnlyWhatFits :
    (∃ s : State, Inv s ∧ s.st = .ready ∧ s.busy = false ∧ s.script = capacityCheck 32 ++ [] ∧
      s.turns = List.replicate 3 .host ∧ 32 = (2 ^ s.depth.val - 1) * 32 ∧ s.path &&& s.mask = 0#32 ∧
      s.offset.val = 0) ∧
    (∃ s : State, Inv s ∧ s.st = .ready ∧ s.busy = false ∧ s.script = capacityCheckFrom 1#32 32 ++ [] ∧
      s.turns = List.replicate 2 .host ∧ s.path = 1#32 ∧ s.offset.val = 0 ∧
      32 = (s.mask.toNat - (1#32 &&& s.mask).toNat + 1) * 32) :=
  ⟨⟨withAgents (readyAt 0#32 0) (capacityCheck 32 ++ []) (List.replicate 3 .host), inv_agents _ inv_ready0 _ _, rfl,
      rfl, rfl, rfl, by decide, by decide, rfl⟩,
    ⟨withAgents (readyAt 1#32 0) (capacityCheckFrom 1#32 32 ++ []) (List.replicate 2 .host),
      inv_agents _ (inv_readyAt _ _ (by decide)) _ _, rfl, rfl, rfl, rfl, rfl, rfl, by decide⟩⟩

end Sys2Proof.Machine.Tests
end

section
/-! SUPPORT. What one move of the machine can do, said once for the three agents: `EngineMove` for the engine,
`HostMove` for the host, and the inversion of `step` into the agent that moves. The statements about every step are case
splits over these outcomes. -/

namespace Sys2Proof.Machine

open Sys2Proof.Expected

/-- Each channel holds at most FIFO_DEPTH bytes (10_state.md R37). -/
def State.ChannelsBounded (s : State) : Prop :=
  s.ksOut.length ≤ Config.fifoDepth ∧ s.din.length ≤ Config.fifoDepth ∧ s.dout.length ≤ Config.fifoDepth

/-- The state with other bytes in the three channels. -/
def State.withChannels (s : State) (ks di dou : List Byte) : State := { s with ksOut := ks, din := di, dout := dou }

/-- Command `i` is the one in flight, with the latch `p` (10_state.md R41). -/
structure State.Latched (s : State) (p : Pending) (i : Instr) : Prop where
  busy : s.busy = true
  pend : s.pend = some p
  word : decode p.word = .ok i

/-- The outcomes of one engine step (42_control.md R172, 40_keystream.md R106). -/
inductive EngineMove (s : State) : State → Prop
  /-- the engine is idle, or holds on a channel -/
  | same : EngineMove s s
  /-- in FAULT the command is ignored -/
  | ignored (hst : s.st = .fault) : EngineMove s s.finishIgnored
  /-- the command ends with an error -/
  | raised (e : ErrorCode) (he : e ≠ .none) : EngineMove s (s.raise e)
  /-- RESET -/
  | reset (p : Pending) (hl : s.Latched p .reset) : EngineMove s s.resetEngine
  /-- CREATE of a legal depth -/
  | created (p : Pending) (d : Nat) (hl : s.Latched p (.create d)) (h1 : 1 ≤ d) (h32 : d ≤ 32) :
      EngineMove s (s.construct d p.argPath p.seed).finish
  /-- GOTO in READY or EXHAUSTED -/
  | traversed (p : Pending) (hi : HasInstance s) : EngineMove s (s.traverse p.argPath).finish
  /-- COMPUTE in READY or EXHAUSTED -/
  | computed (f : Nat) (hi : HasInstance s) : EngineMove s (s.compute f).finish
  /-- a data command of length 0 -/
  | empty (hi : HasInstance s) : EngineMove s s.finishEmpty
  /-- a data command starts to move bytes, no more than `avail()` -/
  | started (p : Pending) (i : Instr) (n : Nat) (hl : s.Latched p i) (hm : movesBytes i = true) (hst : s.st = .ready)
      (hn : n ≤ s.avail) : EngineMove s (s.startBytes n)
  /-- a byte step: the channels have moved a byte each way, the cursor has advanced -/
  | byte (ks di dou : List Byte) (r : Word) (hrem : s.rem ≠ 0#24)
      (hc : s.ChannelsBounded → (s.withChannels ks di dou).ChannelsBounded) :
      EngineMove s ((s.withChannels ks di dou).adv1.countByte.endIfDone r)

/-- The advance of the cursor and the bytes in the channels do not depend on each other (40_keystream.md R105). -/
theorem State.adv1_withChannels (s : State) (ks di dou : List Byte) :
    (s.withChannels ks di dou).adv1 = s.adv1.withChannels ks di dou := by
  unfold State.adv1
  rw [apply_ite (State.withChannels · ks di dou), apply_ite (State.withChannels · ks di dou)]
  rfl

/-- The state in which `xor_step` counts its byte: `b` delivered, the cursor advanced (41_cipher.md R150). -/
theorem State.adv1_combined (s : State) (rest : List Byte) (b : Byte) :
    { State.adv1 { s with din := rest } with dout := (State.adv1 { s with din := rest }).dout ++ [b] } =
      (s.withChannels s.ksOut rest (s.dout ++ [b])).adv1 := by
  have hdin : State.adv1 { s with din := rest } = s.adv1.withChannels s.ksOut rest s.dout :=
    s.adv1_withChannels s.ksOut rest s.dout
  rw [s.adv1_withChannels, hdin]
  rfl

section
variable {s t : State} {p : Pending} {i : Instr}

theorem EngineMove.ifConfigured {body : State → State} (hbody : HasInstance s → EngineMove s (body s)) :
    EngineMove s (s.ifConfigured body) := by
  obtain ⟨hst, hb⟩ | ⟨-, hb⟩ | ⟨hst, hb⟩ := s.ifConfigured_cases body <;> rw [hb]
  · exact .ignored hst
  · exact .raised _ (by decide)
  · exact hbody hst

/-- What READY can deliver from the current leaf is part of what it can deliver (40_keystream.md R104). -/
theorem State.leafRest_le_avail (hst : s.st = .ready) : 32 - s.offset.val ≤ s.avail := by
  simp [State.avail, hst]

theorem EngineMove.startPull (hl : s.Latched p i) (hm : movesBytes i = true) (len : Nat) (hi : HasInstance s) :
    EngineMove s (s.startPull len) := by
  obtain ⟨-, hb⟩ | ⟨-, -, hb⟩ | ⟨hpos, hle, hb⟩ := s.startPull_cases len <;> rw [hb]
  · exact .empty hi
  · exact .raised _ (by decide)
  · refine .started p i len hl hm (hi.resolve_right fun hst => ?_) hle
    simp only [State.avail, hst, if_true] at hle
    omega

theorem EngineMove.startRead (hl : s.Latched p i) (hm : movesBytes i = true) (len : Nat) (hi : HasInstance s) :
    EngineMove s (s.startRead len) := by
  obtain ⟨-, hb⟩ | ⟨-, -, hb⟩ | ⟨-, hst, hb⟩ := s.startRead_cases len <;> rw [hb]
  · exact .empty hi
  · exact .raised _ (by decide)
  · have hready := hi.resolve_right hst
    exact .started p i _ hl hm hready ((Nat.min_le_right _ _).trans (State.leafRest_le_avail hready))

theorem EngineMove.ksStep (hrem : s.rem ≠ 0#24) (h : s.ksStep = .next t) : EngineMove s t := by
  by_cases hroom : s.ksOut.length < Config.fifoDepth
  · cases hk : s.leafByte with
    | none => simp [State.ksStep, hroom, hk] at h
    | some k =>
      rw [s.ksStep_eq k hk, if_pos hroom] at h
      cases h
      exact .byte (s.ksOut ++ [k]) s.din s.dout _ hrem fun hb =>
        ⟨by simpa [State.withChannels] using hroom, hb.2⟩
  · rw [State.ksStep, if_neg hroom] at h
    cases h
    exact .same

theorem EngineMove.xorStep {len : Nat} (hrem : s.rem ≠ 0#24) (h : s.xorStep len = .next t) : EngineMove s t := by
  cases hd : s.din with
  | nil =>
    rw [s.xorStep_empty len hd] at h
    cases h
    exact .same
  | cons x rest =>
    by_cases hroom : s.dout.length < Config.fifoDepth
    · cases hk : s.leafByte with
      | none => simp [State.xorStep, hd, hroom, hk] at h
      | some k =>
        rw [s.xorStep_eq len k x rest hk hd, if_pos hroom, State.adv1_combined] at h
        cases h
        refine .byte s.ksOut rest (s.dout ++ [x ^^^ k]) _ hrem fun ⟨hks, hdin, _⟩ => ⟨hks, ?_, ?_⟩
        · rw [hd] at hdin
          exact (Nat.le_succ _).trans hdin
        · simpa [State.withChannels] using hroom
    · simp only [State.xorStep, hd, if_neg hroom] at h
      cases h
      exact .same

/-- Every outcome of a command's step is one of `EngineMove`. -/
theorem exec_move (hl : s.Latched p i) (h : exec i s = .next t) : EngineMove s t := by
  cases i with
  | create d =>
    simp only [exec, execCreate, hl.pend] at h
    split at h <;> cases h
    · exact .raised _ (by decide)
    · exact .created p d hl (by omega) (by omega)
  | goto =>
    simp only [exec, execGoto, hl.pend] at h
    cases h
    exact .ifConfigured (.traversed p)
  | compute f =>
    cases h
    exact .ifConfigured (.computed f)
  | read len =>
    simp only [exec, execRead] at h
    split at h
    · cases h
      exact .ifConfigured (.startRead hl rfl len)
    · exact .ksStep ‹_› h
  | readExact len =>
    simp only [exec, execReadExact] at h
    split at h
    · cases h
      exact .ifConfigured (.startPull hl rfl len)
    · exact .ksStep ‹_› h
  | xor len =>
    simp only [exec, execXor] at h
    split at h
    · cases h
      exact .ifConfigured (.startPull hl rfl len)
    · exact .xorStep ‹_› h
  | reset =>
    cases h
    exact .reset p hl

/-- Every outcome of an engine step is one of `EngineMove`. -/
theorem engineStep_move (h : engineStep s = .next t) : EngineMove s t := by
  unfold engineStep at h
  split at h
  · next hb =>
    cases hp : s.pend with
    | none => simp [hp] at h
    | some p =>
      cases hw : decode p.word with
      | ok i =>
        simp only [hp, hw] at h
        exact exec_move ⟨hb, hp, hw⟩ h
      | error e =>
        simp only [hp, hw] at h
        cases h
        unfold State.dispatchIllegal
        split
        · exact .ignored ‹_›
        · exact .raised _ (by decide)
  · cases h
    exact .same

end

end Sys2Proof.Machine
end

section
/-! SUPPORT. One equation per operation of the host (30_encoding.md R86, R87; 10_state.md R37), and what a host move and
a whole step can do. -/

namespace Sys2Proof.Machine

open Sys2Proof.Expected

section
variable {s t : State} {b : Byte} {rest : List HostOp} {q : List Byte} {addr width len : Nat} {v p0 : Word}

theorem hostStep_nil (hs : s.script = []) : hostStep s = .next s := by
  unfold hostStep; rw [hs]

theorem hostStep_write (hs : s.script = .write addr width v :: rest) :
    hostStep s = s.opDone.memWrite addr width v := by
  unfold hostStep; rw [hs]

/-- A read that answers is one in the window. -/
theorem hostStep_read (hs : s.script = .read addr width :: rest) (h : hostStep s = .next t) :
    ∃ r, s.opDone.memRead addr width = .next r ∧ t = r.2 := by
  unfold hostStep at h
  rw [hs] at h
  dsimp only at h
  split at h
  · next r hr =>
    cases h
    exact ⟨r, hr, rfl⟩
  · cases h
  · cases h

theorem hostStep_push (hs : s.script = .push b :: rest) : hostStep s = s.pushElse b (.next s) := by
  unfold hostStep; rw [hs]

theorem hostStep_popKs (hs : s.script = .popKs :: rest) (hq : s.ksOut = b :: q) :
    hostStep s = .next { s with ksOut := q, script := rest, log := .poppedKs b :: s.log } := by
  unfold hostStep; rw [hs, hq]; simp [State.record, State.opDone]

theorem hostStep_popKs_empty (hs : s.script = .popKs :: rest) (hq : s.ksOut = []) : hostStep s = .next s := by
  unfold hostStep; rw [hs, hq]

theorem hostStep_popDout (hs : s.script = .popDout :: rest) : hostStep s = s.popDoutElse (.next s) := by
  unfold hostStep; rw [hs]

theorem hostStep_pushOrStop (hs : s.script = .pushOrStop b :: rest) : hostStep s = s.pushElse b s.stopOnFailure := by
  unfold hostStep; rw [hs]

theorem hostStep_popDoutOrStop (hs : s.script = .popDoutOrStop :: rest) :
    hostStep s = s.popDoutElse s.stopOnFailure := by
  unfold hostStep; rw [hs]

theorem hostStep_wait (hs : s.script = .wait :: rest) :
    hostStep s = .next (if s.busy then s.statusSeen else s.statusSeen.opDone) := by
  unfold hostStep; rw [hs]; dsimp only; rw [s.onStatus_eq, busyField_status]

theorem hostStep_check (hs : s.script = .check :: rest) :
    hostStep s = .next (if stateField (s.readReg .status).1 = 3#2 then s.statusSeen.stopScript .checkFailed
      else s.statusSeen.opDone) := by
  unfold hostStep; rw [hs]; exact s.onStatus_eq _

theorem hostStep_checkCapacity (hs : s.script = .checkCapacity len :: rest) :
    hostStep s = .next (if inputAccepted s.log len then s.opDone else s.stopScript (.inputRefused len)) := by
  unfold hostStep; rw [hs]

theorem hostStep_checkCapacityFrom (hs : s.script = .checkCapacityFrom p0 len :: rest) :
    hostStep s = .next (if inputAcceptedFrom s.log p0 len then s.opDone else s.stopScript (.inputRefused len)) := by
  unfold hostStep; rw [hs]

/-- A push with room appends to DIN (10_state.md R37). -/
theorem State.pushElse_room (full : Result) (h : s.din.length < Config.fifoDepth) :
    s.pushElse b full = .next { s with din := s.din ++ [b], script := s.script.tail } := if_pos h

theorem State.pushElse_full (full : Result) (h : ¬ s.din.length < Config.fifoDepth) : s.pushElse b full = full :=
  if_neg h

/-- A pop takes the oldest byte of DOUT (10_state.md R37). -/
theorem State.popDoutElse_cons (empty : Result) (h : s.dout = b :: q) :
    s.popDoutElse empty = .next { s with dout := q, script := s.script.tail, log := .poppedDout b :: s.log } := by
  unfold State.popDoutElse; rw [h]; rfl

theorem State.popDoutElse_nil (empty : Result) (h : s.dout = []) : s.popDoutElse empty = empty := by
  unfold State.popDoutElse; rw [h]

/-- Which accesses reach an offset of the window (20_memory.md R62). -/
theorem windowAccess_eq_at {off : Nat} (h : windowAccess addr width = .at off) :
    addr = Config.engineBase + off ∧ width = 4 ∧ off < 4096 ∧ off % 4 = 0 := by
  unfold windowAccess at h
  split at h
  · cases h
  · split at h
    · next hout hal =>
      cases h
      omega
    · cases h

/-- CMD stands at offset 0 only (10_state.md R27). -/
theorem regAt_eq_cmd {off : Nat} (h : regAt off = .cmd) : off = 0 := by
  simpa [regAt, ite_eq_iff] using h

theorem State.memRead_next {r : Word × State} (h : s.memRead addr width = .next r) :
    ∃ off, windowAccess addr width = .at off ∧ r.1 = (s.readReg (regAt off)).1 ∧
      r.2 = { s with draws := (s.readReg (regAt off)).2.draws, log := .readValue addr r.1 :: s.log } := by
  unfold State.memRead at h
  split at h
  · next off hoff =>
    cases h
    exact ⟨off, hoff, rfl, congrArg (State.record · _) (s.readReg_state _)⟩
  · cases h
  · cases h

theorem State.memWrite_next (h : s.memWrite addr width v = .next t) :
    ∃ off, windowAccess addr width = .at off ∧ t = s.writeReg (regAt off) v := by
  unfold State.memWrite at h
  split at h
  · next off hoff =>
    cases h
    exact ⟨off, hoff, rfl⟩
  · cases h
  · cases h

/-- A write of another register than CMD stores an operand or is ignored (20_memory.md R67). -/
theorem State.writeReg_operand (s : State) {r : Reg} (v : Word) (h : r ≠ .cmd) :
    ∃ a w, s.writeReg r v = { s with argPath := a, seedIn := w } := by
  cases r with
  | cmd => exact absurd rfl h
  | argPath => exact ⟨v, s.seedIn, rfl⟩
  | seedIn k => exact ⟨s.argPath, s.seedIn.set k.val v, rfl⟩
  | _ => exact ⟨s.argPath, s.seedIn, rfl⟩

end

/-- The outcomes of one host move (30_encoding.md R86). -/
inductive HostMove (s : State) : State → Prop
  /-- RESET is written while busy (log 10) -/
  | reset (rest : List HostOp) (hb : s.busy = true) (hs : s.script = writeAt 0x000 0x00000007#32 :: rest) :
      HostMove s (State.resetEngine { s with script := rest })
  /-- another word is written to CMD while busy (60_exceptions.md R188) -/
  | overrun (rest : List HostOp) (hb : s.busy = true) : HostMove s { s with ovr := true, script := rest }
  /-- a word is written to CMD while not busy (42_control.md R171) -/
  | issued (v : Word) (rest : List HostOp) (hb : s.busy = false) : HostMove s (State.issue { s with script := rest } v)
  /-- an operand register is written, or the write is ignored (20_memory.md R67) -/
  | stored (a : Word) (w : Vector Word 8) (rest : List HostOp) :
      HostMove s { s with argPath := a, seedIn := w, script := rest }
  /-- a register is read, a byte is pushed or popped, or the host compares or waits; every channel keeps its bound -/
  | observed (ks di dou : List Byte) (ops : List HostOp) (lg : List HostEvent) (dr : Nat)
      (hc : s.ChannelsBounded → (s.withChannels ks di dou).ChannelsBounded) :
      HostMove s { s with ksOut := ks, din := di, dout := dou, script := ops, log := lg, draws := dr }

section
variable {s t : State}

/-- A move that touches no channel. -/
theorem HostMove.told (ops : List HostOp) (lg : List HostEvent) (dr : Nat) :
    HostMove s { s with script := ops, log := lg, draws := dr } :=
  .observed s.ksOut s.din s.dout ops lg dr id

theorem HostMove.statusSeen (ops : List HostOp) (lg : List HostEvent) :
    HostMove s { s.statusSeen with script := ops, log := lg } := by
  rw [s.statusSeen_eq]
  exact .told ops lg _

theorem HostMove.stopOnFailure (h : s.stopOnFailure = .next t) : HostMove s t := by
  rw [s.stopOnFailure_eq] at h
  split at h <;> cases h
  · exact .statusSeen _ _
  · exact .statusSeen s.statusSeen.script s.statusSeen.log

theorem HostMove.pushElse {b : Byte} {full : Result} (hfull : full = .next t → HostMove s t)
    (h : s.pushElse b full = .next t) : HostMove s t := by
  by_cases hroom : s.din.length < Config.fifoDepth
  · rw [s.pushElse_room full hroom] at h
    cases h
    exact .observed s.ksOut (s.din ++ [b]) s.dout _ s.log s.draws fun ⟨hks, _, hdout⟩ =>
      ⟨hks, by simpa [State.withChannels] using hroom, hdout⟩
  · rw [s.pushElse_full full hroom] at h
    exact hfull h

theorem HostMove.popDoutElse {empty : Result} (hempty : empty = .next t → HostMove s t)
    (h : s.popDoutElse empty = .next t) : HostMove s t := by
  cases hq : s.dout with
  | nil =>
    rw [s.popDoutElse_nil empty hq] at h
    exact hempty h
  | cons b q =>
    rw [s.popDoutElse_cons empty hq] at h
    cases h
    refine .observed s.ksOut s.din q _ _ s.draws fun ⟨hks, hdin, hdout⟩ => ⟨hks, hdin, ?_⟩
    rw [hq] at hdout
    exact (Nat.le_succ _).trans hdout

theorem HostMove.popKs {rest : List HostOp} (hs : s.script = .popKs :: rest) (h : hostStep s = .next t) :
    HostMove s t := by
  cases hq : s.ksOut with
  | nil =>
    rw [hostStep_popKs_empty hs hq] at h
    cases h
    exact .told _ _ _
  | cons b q =>
    rw [hostStep_popKs hs hq] at h
    cases h
    refine .observed q s.din s.dout _ _ s.draws fun ⟨hks, hrest⟩ => ⟨?_, hrest⟩
    rw [hq] at hks
    exact (Nat.le_succ _).trans hks

theorem HostMove.write {addr width : Nat} {v : Word} {rest : List HostOp} (hs : s.script = .write addr width v :: rest)
    (h : hostStep s = .next t) : HostMove s t := by
  rw [hostStep_write hs] at h
  obtain ⟨off, hoff, rfl⟩ := State.memWrite_next h
  have hdone : s.opDone = { s with script := rest } := by rw [State.opDone, hs, List.tail_cons]
  rw [hdone]
  by_cases hcmd : regAt off = .cmd
  · obtain ⟨rfl, rfl, -, -⟩ := windowAccess_eq_at hoff
    obtain rfl := regAt_eq_cmd hcmd
    rw [hcmd]
    change HostMove s (State.writeCmd { s with script := rest } v)
    unfold State.writeCmd
    split
    · next hb =>
      split
      · next hv =>
        subst hv
        exact .reset rest hb hs
      · exact .overrun rest hb
    · next hb => exact .issued v rest (by simpa using hb)
  · obtain ⟨a, w, hw⟩ := State.writeReg_operand { s with script := rest } v hcmd
    rw [hw]
    exact .stored a w rest

/-- Every outcome of a host move is one of `HostMove`. -/
theorem hostStep_move (h : hostStep s = .next t) : HostMove s t := by
  cases hs : s.script with
  | nil =>
    rw [hostStep_nil hs] at h
    cases h
    exact .told s.script s.log s.draws
  | cons op rest =>
    cases op with
    | write addr width v => exact .write hs h
    | read addr width =>
      obtain ⟨r, hr, rfl⟩ := hostStep_read hs h
      obtain ⟨off, -, -, hstate⟩ := State.memRead_next hr
      rw [hstate]
      exact .told _ _ _
    | push b =>
      rw [hostStep_push hs] at h
      refine .pushElse (fun hf => ?_) h
      cases hf
      exact .told s.script s.log s.draws
    | popKs => exact .popKs hs h
    | popDout =>
      rw [hostStep_popDout hs] at h
      refine .popDoutElse (fun hf => ?_) h
      cases hf
      exact .told s.script s.log s.draws
    | pushOrStop b =>
      rw [hostStep_pushOrStop hs] at h
      exact .pushElse .stopOnFailure h
    | popDoutOrStop =>
      rw [hostStep_popDoutOrStop hs] at h
      exact .popDoutElse .stopOnFailure h
    | wait =>
      rw [hostStep_wait hs] at h
      split at h <;> cases h
      · exact .statusSeen s.statusSeen.script s.statusSeen.log
      · exact .statusSeen _ s.statusSeen.log
    | check =>
      rw [hostStep_check hs] at h
      split at h <;> cases h
      · exact .statusSeen _ _
      · exact .statusSeen _ s.statusSeen.log
    | checkCapacity len =>
      rw [hostStep_checkCapacity hs] at h
      split at h <;> cases h
      · exact .told _ s.log s.draws
      · exact .told _ _ s.draws
    | checkCapacityFrom p0 len =>
      rw [hostStep_checkCapacityFrom hs] at h
      split at h <;> cases h
      · exact .told _ s.log s.draws
      · exact .told _ _ s.draws

/-- Both spellings of a reset (42_control.md R170). -/
theorem State.resetEngine_eq_afterReset (s : State) : s.resetEngine = afterReset s := rfl

/-- The agent whose turn it is makes one of its moves, with the turn off the list (20_memory.md R70). -/
theorem step_cases (h : step s = .next t) :
    (s.engineMoves ∧ EngineMove s.afterTurn t) ∨
    ((∃ ts, s.turns = .host :: ts) ∧ HostMove s.afterTurn t) ∨
    ((∃ ts, s.turns = .hardwareReset :: ts) ∧ t = afterReset s.afterTurn) := by
  unfold step at h
  cases hts : s.turns with
  | nil =>
    have hafter : s.afterTurn = s := by rw [State.afterTurn, hts, List.tail_nil, ← hts]
    rw [hts] at h
    rw [hafter]
    exact .inl ⟨.inl hts, engineStep_move h⟩
  | cons turn ts =>
    have hafter : s.afterTurn = { s with turns := ts } := by rw [State.afterTurn, hts, List.tail_cons]
    rw [hts] at h
    dsimp only at h
    rw [← hafter] at h
    cases turn with
    | engine => exact .inl ⟨.inr ⟨ts, hts⟩, engineStep_move h⟩
    | host => exact .inr (.inl ⟨⟨ts, rfl⟩, hostStep_move h⟩)
    | hardwareReset =>
      have ht : s.afterTurn.resetEngine = t := Host.Outcome.next.inj h
      exact .inr (.inr ⟨⟨ts, rfl⟩, ht.symm.trans s.afterTurn.resetEngine_eq_afterReset⟩)

end

end Sys2Proof.Machine
end

section
/-! SUPPORT. The invariants, move by move (10_state.md R25, R26, R37, R41), and the statements about every step. -/

namespace Sys2Proof.Machine

open Sys2Proof.Expected

/-- The part of `Inv` that does not speak of the command in flight: chain, cursor and channels. It is what a command's
body works on, and what makes `Inv` once the command has ended (42_control.md R173). -/
structure State.Sound (s : State) : Prop where
  chain : ∀ i, i < s.depth.val → s.levelRight i
  unused : ∀ i, s.depth.val ≤ i → i < 32 → s.nodes[i]? = some zero32
  ready : s.st = .ready → 1 ≤ s.depth.val ∧ s.offset.val ≤ 31
  exhausted : s.st = .exhausted → 1 ≤ s.depth.val ∧ s.offset.val = 32 ∧ s.path &&& s.mask = s.mask
  unconfigured : s.st = .unconfigured → s.depth.val = 0
  fifos : s.ChannelsBounded

section
variable {s t : State}

theorem Inv.sound (h : Inv s) : s.Sound := ⟨h.chain, h.unused, h.ready, h.exhausted, h.unconfigured, h.fifos⟩

/-- READY and EXHAUSTED have at least one level (10_state.md R26). -/
theorem State.Sound.depth_pos (h : s.Sound) (hi : HasInstance s) : 1 ≤ s.depth.val :=
  hi.elim (fun hst => (h.ready hst).1) fun hst => (h.exhausted hst).1

/-- With no command in flight the invariants are those of chain, cursor and channels (10_state.md R41). -/
theorem State.Sound.inv_of_idle (h : s.Sound) (hb : s.busy = false) (hp : s.pend = none) (hr : s.rem = 0#24)
    (hc : s.cnt = 0#24) : Inv s where
  chain := h.chain
  unused := h.unused
  ready := h.ready
  exhausted := h.exhausted
  unconfigured := h.unconfigured
  latch := by rw [hb, hp, Option.isSome_none]
  idle _ := hr
  fresh _ := hc
  running hne := absurd hr hne
  fifos := h.fifos

/-- What a command's end leaves: FAULT asks nothing of the cursor, every other STATE is that of the body. -/
theorem State.Sound.inv_finish (h : s.Sound) : Inv s.finish := by
  refine State.Sound.inv_of_idle ?_ s.finish_busy s.finish_pend s.finish_rem s.finish_cnt
  unfold State.finish
  split
  · exact ⟨h.chain, h.unused, nofun, nofun, nofun, h.fifos⟩
  · exact ⟨h.chain, h.unused, h.ready, h.exhausted, h.unconfigured, h.fifos⟩

theorem State.Sound.inv_raise (h : s.Sound) (e : ErrorCode) : Inv (s.raise e) :=
  State.Sound.inv_of_idle ⟨h.chain, h.unused, nofun, nofun, nofun, h.fifos⟩ rfl rfl rfl rfl

/-- The state after a reset of either kind (10_state.md R22). -/
theorem inv_resetEngine (s : State) : Inv s.resetEngine :=
  State.Sound.inv_of_idle
    { chain := nofun
      unused := fun i _ hi => by rw [s.resetEngine_nodes, Vector.getElem?_replicate, if_pos hi]
      ready := nofun
      exhausted := nofun
      unconfigured := fun _ => rfl
      fifos := ⟨Nat.zero_le _, Nat.zero_le _, Nat.zero_le _⟩ } rfl rfl rfl rfl

/-- The depth that CREATE leaves is its operand (40_keystream.md R108). -/
theorem State.construct_depth_val (s : State) {d : Nat} (p : Word) (x : B32) (h32 : d ≤ 32) :
    (s.construct d p x).depth.val = d := Nat.mod_eq_of_lt (by omega)

/-- What CREATE builds is sound, whatever there was before (40_keystream.md R108). -/
theorem State.sound_construct (s : State) {d : Nat} (p : Word) (x : B32) (h1 : 1 ≤ d) (h32 : d ≤ 32) :
    (s.construct d p x).Sound where
  chain i hi := s.construct_chain d p x h32 i (by rwa [s.construct_depth_val p x h32] at hi)
  unused i hi h := s.construct_unused d p x h32 i (by rwa [s.construct_depth_val p x h32] at hi) h
  ready _ := ⟨by rwa [s.construct_depth_val p x h32], Nat.zero_le _⟩
  exhausted := nofun
  unconfigured := nofun
  fifos := ⟨Nat.zero_le _, Nat.zero_le _, Nat.zero_le _⟩

/-- A traversal of a sound chain leaves a sound READY state (40_keystream.md R103). -/
theorem State.Sound.traverse (h : s.Sound) (hd : 1 ≤ s.depth.val) (p : Word) : (s.traverse p).Sound where
  chain := s.traverse_chain p h.chain
  unused i hi h32 := (s.traverse_unused p i hi).trans (h.unused i hi h32)
  ready _ := ⟨hd, Nat.zero_le _⟩
  exhausted := nofun
  unconfigured := nofun
  fifos := h.fifos

/-- COMPUTE changes no slot of a right chain (40_keystream.md R109). -/
theorem State.Sound.compute (h : s.Sound) (f : Nat) : (s.compute f).Sound := by
  have hnodes := s.compute_nodes_same f h.chain
  exact
    { chain := fun i hi => (congrArg (·[i]?) hnodes).trans (h.chain i hi)
      unused := fun i hi h32 => (congrArg (·[i]?) hnodes).trans (h.unused i hi h32)
      ready := h.ready
      exhausted := h.exhausted
      unconfigured := h.unconfigured
      fifos := h.fifos }

/-- The advance of the cursor in READY: within the leaf, to the next leaf, or to the end of the last one
(40_keystream.md R105). -/
theorem State.Sound.adv1 (h : s.Sound) (hst : s.st = .ready) : s.adv1.Sound := by
  have hd := (h.ready hst).1
  obtain ⟨ho, ha⟩ | ⟨-, -, ha⟩ | ⟨-, hlast, ha⟩ := s.adv1_cases <;> rw [ha]
  · have hoff : (Fin.ofNat 33 (s.offset.val + 1)).val ≤ 31 := by
      rw [Fin.val_ofNat]
      omega
    exact ⟨h.chain, h.unused, fun _ => ⟨hd, hoff⟩, fun he => by simp [hst] at he, h.unconfigured, h.fifos⟩
  · exact h.traverse hd _
  · exact ⟨h.chain, h.unused, nofun, fun _ => ⟨hd, rfl, hlast⟩, nofun, h.fifos⟩

theorem State.Sound.withChannels (h : s.Sound) {ks di dou : List Byte}
    (hc : s.ChannelsBounded → (s.withChannels ks di dou).ChannelsBounded) : (s.withChannels ks di dou).Sound :=
  ⟨h.chain, h.unused, h.ready, h.exhausted, h.unconfigured, hc h.fifos⟩

theorem State.Sound.withResult (h : s.Sound) (r : Word) : State.Sound { s with result := r } :=
  ⟨h.chain, h.unused, h.ready, h.exhausted, h.unconfigured, h.fifos⟩

theorem State.Sound.countByte (h : s.Sound) : s.countByte.Sound :=
  ⟨h.chain, h.unused, h.ready, h.exhausted, h.unconfigured, h.fifos⟩

/-- What is no part of the invariants: the host's registers, the overrun flag, the host agent and the model's own
fields; and the channels within their bound. -/
theorem Inv.hostSide (h : Inv s) (o : Bool) (a : Word) (w : Vector Word 8) {ks di dou : List Byte} (ops : List HostOp)
    (lg : List HostEvent) (ts : List Turn) (dr : Nat)
    (hc : s.ChannelsBounded → (s.withChannels ks di dou).ChannelsBounded) :
    Inv { s with ovr := o, argPath := a, seedIn := w, ksOut := ks, din := di, dout := dou, script := ops, log := lg,
                 turns := ts, draws := dr } where
  chain := h.chain
  unused := h.unused
  ready := h.ready
  exhausted := h.exhausted
  unconfigured := h.unconfigured
  latch := h.latch
  idle := h.idle
  fresh := h.fresh
  running hr := ⟨(h.running hr).st, (h.running hr).enough, (h.running hr).counted, (h.running hr).latched⟩
  fifos := hc h.fifos

/-- The issue of a word (42_control.md R171). -/
theorem Inv.issue (h : Inv s) (hb : s.busy = false) (v : Word) : Inv (s.issue v) where
  chain := h.chain
  unused := h.unused
  ready := h.ready
  exhausted := h.exhausted
  unconfigured := h.unconfigured
  latch := rfl
  idle := nofun
  fresh := h.fresh
  running hr := absurd (h.idle hb) hr
  fifos := h.fifos

/-- In FAULT no data command runs, so the latch can be emptied at once (42_control.md R172). -/
theorem Inv.finishIgnored (h : Inv s) (hst : s.st = .fault) : Inv s.finishIgnored := by
  have hrem : s.rem = 0#24 := by
    by_contra hne
    simpa [hst] using (h.running hne).st
  exact State.Sound.inv_of_idle ⟨h.chain, h.unused, h.ready, h.exhausted, h.unconfigured, h.fifos⟩ rfl rfl hrem
    (h.fresh hrem)

/-- A data command that starts within `avail()` can be served to its end (40_keystream.md R106). -/
theorem Inv.startBytes (h : Inv s) {p : Pending} {i : Instr} (hl : s.Latched p i) (hm : movesBytes i = true)
    (hst : s.st = .ready) {n : Nat} (hn : n ≤ s.avail) : Inv (s.startBytes n) where
  chain := h.chain
  unused := h.unused
  ready := h.ready
  exhausted := h.exhausted
  unconfigured := h.unconfigured
  latch := h.latch
  idle hb := by simp [hl.busy] at hb
  fresh _ := rfl
  running _ :=
    { st := hst
      enough := (BitVec.toNat_ofNat n 24 ▸ Nat.mod_le n _).trans hn
      counted := (BitVec.ofNat 24 n).isLt
      latched := ⟨p, i, hl.pend, hl.word, hm⟩ }
  fifos := h.fifos

/-- One counted byte that is not the last: what is left and what can be delivered have both gone down by one, so READY
holds and no count wraps (40_keystream.md R104 to R106). -/
theorem State.Running.adv1_countByte (h : s.Running) (hs : s.Sound) (hrem : s.rem ≠ 0#24)
    (hnext : s.adv1.countByte.rem ≠ 0#24) : s.adv1.countByte.Running := by
  obtain ⟨hst, henough, hcounted, p, i, hp, hw, hm⟩ := h
  have hoff := (hs.ready hst).2
  have havail := s.adv1_avail hst (by omega)
  have hcong : s.adv1.countByte.avail = s.adv1.avail := rfl
  have hleft : (s.rem - 1#24).toNat + 1 = s.rem.toNat := by bv_omega
  have hcnt : (s.cnt + 1#24).toNat = s.cnt.toNat + 1 := by bv_omega
  have hpos : (s.rem - 1#24).toNat ≠ 0 := by
    rw [State.countByte_rem, State.adv1_rem] at hnext
    bv_omega
  refine ⟨?_, ?_, ?_, p, i, ?_, hw, hm⟩
  · obtain ⟨-, ha⟩ | ⟨-, -, ha⟩ | ⟨-, -, ha⟩ := s.adv1_cases
    · rw [ha]
      exact hst
    · rw [ha]
      rfl
    · have hnone : s.adv1.avail = 0 := by simp [ha, State.avail]
      omega
  · rw [State.countByte_rem, State.adv1_rem]
    omega
  · rw [State.countByte_rem, State.countByte_cnt, State.adv1_rem, State.adv1_cnt, hcnt]
    omega
  · rw [State.countByte_pend, State.adv1_pend, hp]

/-- A byte step of a running command (40_keystream.md R106, 41_cipher.md R150). -/
theorem Inv.byteStep (h : Inv s) (hrem : s.rem ≠ 0#24) (r : Word) : Inv (s.adv1.countByte.endIfDone r) := by
  have hrun := h.running hrem
  have hsound : s.adv1.countByte.Sound := (h.sound.adv1 hrun.st).countByte
  obtain ⟨hnext, hend⟩ | ⟨-, hend⟩ := s.adv1.countByte.endIfDone_cases r <;> rw [hend]
  · have hlatch : s.adv1.countByte.busy = s.adv1.countByte.pend.isSome := by simpa using h.latch
    obtain ⟨p, i, hp, -, -⟩ := hrun.latched
    exact
      { chain := hsound.chain
        unused := hsound.unused
        ready := hsound.ready
        exhausted := hsound.exhausted
        unconfigured := hsound.unconfigured
        latch := hlatch
        idle := fun hb => by simp [h.latch, hp] at hb
        fresh := fun hz => absurd hz hnext
        running := fun _ => hrun.adv1_countByte h.sound hrem hnext
        fifos := hsound.fifos }
  · exact (hsound.withResult r).inv_finish

/-- Every engine move keeps the invariants. -/
theorem EngineMove.inv (hm : EngineMove s t) (h : Inv s) : Inv t := by
  cases hm with
  | same => exact h
  | ignored hst => exact h.finishIgnored hst
  | raised e _ => exact h.sound.inv_raise e
  | reset p _ => exact inv_resetEngine s
  | created p d _ h1 h32 => exact (s.sound_construct p.argPath p.seed h1 h32).inv_finish
  | traversed p hi => exact (h.sound.traverse (h.sound.depth_pos hi) p.argPath).inv_finish
  | computed f _ => exact (h.sound.compute f).inv_finish
  | empty _ => exact (h.sound.withResult _).inv_finish
  | started p i n hl hmb hst hn => exact h.startBytes hl hmb hst hn
  | byte ks di dou r hrem hc =>
    have hchan : Inv (s.withChannels ks di dou) := h.hostSide _ _ _ _ _ _ _ hc
    exact hchan.byteStep hrem r

/-- Every host move keeps the invariants. -/
theorem HostMove.inv (hm : HostMove s t) (h : Inv s) : Inv t := by
  cases hm with
  | reset rest _ _ => exact inv_resetEngine _
  | overrun rest _ => exact h.hostSide _ _ _ _ _ _ _ id
  | issued v rest hb =>
    have hops : Inv { s with script := rest } := h.hostSide _ _ _ _ _ _ _ id
    exact hops.issue hb v
  | stored a w rest => exact h.hostSide _ _ _ _ _ _ _ id
  | observed ks di dou ops lg dr hc => exact h.hostSide _ _ _ _ _ _ _ hc

theorem Inv.afterTurn (h : Inv s) : Inv s.afterTurn := h.hostSide _ _ _ _ _ _ _ id

/-- Settles O17: the outcomes of the three agents' moves, each of which keeps the invariants. -/
theorem stepKeepsTheInvariants : Obligations.StepKeepsTheInvariants := by
  intro s t h hstep
  obtain ⟨-, hm⟩ | ⟨-, hm⟩ | ⟨-, rfl⟩ := step_cases hstep
  · exact hm.inv h.afterTurn
  · exact hm.inv h.afterTurn
  · exact inv_resetEngine s.afterTurn

/-- What every step keeps, every run keeps. -/
theorem runSteps_keeps {P : State → Prop} (hstep : ∀ s t, P s → step s = .next t → P t) (k : Nat) (h : P s)
    (hrun : runSteps k s = .next t) : P t := by
  induction k generalizing s with
  | zero =>
    cases hrun
    exact h
  | succ k ih =>
    rw [runSteps] at hrun
    cases hu : step s with
    | next u =>
      rw [hu] at hrun
      exact ih (hstep s u h hu) hrun
    | fault f => simp [hu] at hrun
    | refused r => simp [hu] at hrun

/-- Settles O18: the chain invariant is part of `Inv`, which every run keeps. -/
theorem chainIsRightWheneverTheEngineIsIdle : Obligations.ChainIsRightWheneverTheEngineIsIdle := by
  intro k s t h hrun _ _
  have ht : Inv t := runSteps_keeps stepKeepsTheInvariants k h hrun
  exact ⟨ht.chain, ht.unused⟩

end

end Sys2Proof.Machine
end

section
/-! SUPPORT. Which steps write ERRCODE, the seed and the depth (10_state.md R22, R42), and the state after reset. -/

namespace Sys2Proof.Machine

open Sys2Proof.Expected

section
variable {s t : State}

/-- The engine's move on a latched RESET is a reset by its cause (42_control.md R170). -/
theorem resetStep_of_latched (he : s.engineMoves) {p : Pending} (hl : s.afterTurn.Latched p .reset) :
    ResetStep s s.afterTurn.resetEngine :=
  .inr (.inl ⟨he, hl.busy, ⟨p, hl.pend, hl.word⟩, s.afterTurn.resetEngine_eq_afterReset⟩)

theorem createMoves_of_latched (he : s.engineMoves) {p : Pending} {d : Nat} (hl : s.afterTurn.Latched p (.create d))
    (h1 : 1 ≤ d) (h32 : d ≤ 32) : CreateMoves s p d :=
  ⟨he, hl.busy, hl.pend, hl.word, h1, h32⟩

/-- A step is the engine's move, a reset by its cause, or a host move, which writes none of seed, depth and ERRCODE. -/
theorem step_engine_or_reset_or_kept (h : step s = .next t) :
    (s.engineMoves ∧ EngineMove s.afterTurn t) ∨ ResetStep s t ∨
    (t.seed = s.seed ∧ t.depth = s.depth ∧ t.err = s.err) := by
  obtain hengine | ⟨hts, hm⟩ | hreset := step_cases h
  · exact .inl hengine
  · cases hm with
    | reset rest hb hs =>
      exact .inr (.inl (.inr (.inr ⟨hts, hb, rest, hs, State.resetEngine_eq_afterReset _⟩)))
    | overrun rest _ => exact .inr (.inr ⟨rfl, rfl, rfl⟩)
    | issued v rest _ => exact .inr (.inr ⟨rfl, rfl, rfl⟩)
    | stored a w rest => exact .inr (.inr ⟨rfl, rfl, rfl⟩)
    | observed ks di dou ops lg dr _ => exact .inr (.inr ⟨rfl, rfl, rfl⟩)
  · exact .inr (.inl (.inl hreset))

/-- A finish that writes ERRCODE reports an overrun (42_control.md R173). -/
theorem State.fault_of_finish_err (h : s.finish.err ≠ s.err) : s.finish.st = .fault ∧ s.finish.err ≠ .none := by
  cases ho : s.ovr with
  | false => simp [ho] at h
  | true => simp [ho]

/-- An engine move that writes ERRCODE ends in FAULT with an error, is a RESET, or is a CREATE that ends READY
(10_state.md R42). -/
theorem EngineMove.err_changed (hm : EngineMove s t) (h : t.err ≠ s.err) :
    (t.st = .fault ∧ t.err ≠ .none) ∨ (∃ p, s.Latched p .reset ∧ t = s.resetEngine) ∨
    (t.err = .none ∧ t.st = .ready ∧ ∃ p d, s.Latched p (.create d) ∧ 1 ≤ d ∧ d ≤ 32) := by
  cases hm with
  | same => exact absurd rfl h
  | ignored _ => exact absurd rfl h
  | raised e he => exact .inl ⟨rfl, he⟩
  | reset p hl => exact .inr (.inl ⟨p, hl, rfl⟩)
  | created p d hl h1 h32 =>
    by_cases hkept : (s.construct d p.argPath p.seed).finish.err = .none
    · refine .inr (.inr ⟨hkept, ?_, p, d, hl, h1, h32⟩)
      rw [State.finish_err] at hkept
      rw [State.finish_st]
      split at hkept
      · cases hkept
      · rw [if_neg ‹_›, State.construct_st]
    · exact .inl (State.fault_of_finish_err hkept)
  | traversed p _ => exact .inl (State.fault_of_finish_err h)
  | computed f _ => exact .inl (State.fault_of_finish_err h)
  | empty _ => exact .inl (State.fault_of_finish_err h)
  | started p i n _ _ _ _ => exact absurd rfl h
  | byte ks di dou r _ _ =>
    have hkept : (s.withChannels ks di dou).adv1.countByte.err = s.err := State.adv1_err _
    obtain ⟨-, hend⟩ | ⟨-, hend⟩ := (s.withChannels ks di dou).adv1.countByte.endIfDone_cases r
    · rw [hend] at h
      exact absurd hkept h
    · rw [hend] at h ⊢
      exact .inl (State.fault_of_finish_err fun hsame => h (hsame.trans hkept))

/-- Settles O15: the engine's moves that write ERRCODE; a host move writes it only as a reset. -/
theorem errcodeChangesOnlyByErrorCreateOrReset : Obligations.ErrcodeChangesOnlyByErrorCreateOrReset := by
  intro s t hstep hne
  obtain ⟨he, hm⟩ | hreset | ⟨-, -, herr⟩ := step_engine_or_reset_or_kept hstep
  · obtain hfault | ⟨p, hl, rfl⟩ | ⟨hnone, hready, p, d, hl, h1, h32⟩ := hm.err_changed hne
    · exact .inl hfault
    · exact .inr ⟨rfl, .inl (resetStep_of_latched he hl)⟩
    · exact .inr ⟨hnone, .inr ⟨hready, p, d, createMoves_of_latched he hl h1 h32⟩⟩
  · refine .inr ⟨?_, .inl hreset⟩
    obtain ⟨-, rfl⟩ | ⟨-, -, -, rfl⟩ | ⟨-, -, rest, -, rfl⟩ := hreset <;> rfl
  · exact absurd herr hne

/-- An engine move that writes the seed or the depth is a RESET or a legal CREATE (10_state.md R22). -/
theorem EngineMove.seed_or_depth_changed (hm : EngineMove s t) (h : t.seed ≠ s.seed ∨ t.depth ≠ s.depth) :
    (∃ p, s.Latched p .reset ∧ t = s.resetEngine) ∨
    (∃ p d, s.Latched p (.create d) ∧ 1 ≤ d ∧ d ≤ 32 ∧ t.seed = p.seed ∧ t.depth.val = d) := by
  by_cases hkept : t.seed = s.seed ∧ t.depth = s.depth
  · exact absurd hkept (not_and_or.mpr h)
  · cases hm with
    | reset p hl => exact .inl ⟨p, hl, rfl⟩
    | created p d hl h1 h32 =>
      refine .inr ⟨p, d, hl, h1, h32, ?_, ?_⟩
      · rw [State.finish_seed, State.construct_seed]
      · rw [State.finish_depth, s.construct_depth_val _ _ h32]
    | byte ks di dou r _ _ =>
      refine absurd ⟨?_, ?_⟩ hkept
      · rw [State.endIfDone_seed, State.countByte_seed, State.adv1_seed]
        rfl
      · rw [State.endIfDone_depth, State.countByte_depth, State.adv1_depth]
        rfl
    | traversed p _ => exact absurd ⟨State.finish_seed _, State.finish_depth _⟩ hkept
    | computed f _ => exact absurd ⟨State.finish_seed _, State.finish_depth _⟩ hkept
    | empty _ => exact absurd ⟨State.finish_seed _, State.finish_depth _⟩ hkept
    | _ => exact absurd ⟨rfl, rfl⟩ hkept

/-- Settles O16: of the engine's moves only RESET and a legal CREATE write seed and depth; a host move only as a
reset. -/
theorem seedAndDepthChangeOnlyByCreateOrReset : Obligations.SeedAndDepthChangeOnlyByCreateOrReset := by
  intro s t hstep hne
  obtain ⟨he, hm⟩ | hreset | ⟨hseed, hdepth, -⟩ := step_engine_or_reset_or_kept hstep
  · obtain ⟨p, hl, rfl⟩ | ⟨p, d, hl, h1, h32, hseed, hdepth⟩ := hm.seed_or_depth_changed hne
    · exact .inl (resetStep_of_latched he hl)
    · exact .inr ⟨p, d, createMoves_of_latched he hl h1 h32, hseed, hdepth⟩
  · exact .inl hreset
  · exact absurd ⟨hseed, hdepth⟩ (not_and_or.mpr hne)

end

/-- Settles O1: the state after reset is the one a reset of the engine leaves, which has the invariants. -/
theorem resetStateHoldsResetValues : Obligations.ResetStateHoldsResetValues :=
  ⟨State.reset.resetEngine_eq_afterReset, inv_resetEngine State.reset, rfl, rfl⟩

end Sys2Proof.Machine
end

section
/-! SUPPORT. How byte strings are packed (10_state.md R38, R39; 20_memory.md R63) and what the registers read as
(10_state.md R27 to R40). -/

namespace Sys2Proof.Machine

open Sys2Proof.Expected

/-- Settles O29: the mask and its conjunction as numbers. -/
theorem maskSelectsTheLeafIndex : Obligations.MaskSelectsTheLeafIndex :=
  fun p d hd => ⟨maskOf_toNat d hd, and_maskOf_toNat p d hd⟩

/-- Byte `j` of a word that packs bytes `4q` to `4q+3` (20_memory.md R63). -/
theorem wordOfBytes_byte (x : B32) (q : Fin 8) (j : Fin 4) :
    (wordOfBytes x q).extractLsb' (8 * j.val) 8 = x[4 * q.val + j.val] := by
  unfold wordOfBytes
  match j with
  | 0 => exact BitVec.extractLsb'_append_eq_right
  | 1 =>
    rw [BitVec.extractLsb'_append_eq_of_le (by decide)]
    exact BitVec.extractLsb'_append_eq_right
  | 2 =>
    rw [BitVec.extractLsb'_append_eq_of_le (by decide), BitVec.extractLsb'_append_eq_of_le (by decide)]
    exact BitVec.extractLsb'_append_eq_right
  | 3 =>
    rw [BitVec.extractLsb'_append_eq_of_le (by decide), BitVec.extractLsb'_append_eq_of_le (by decide)]
    exact BitVec.extractLsb'_append_eq_left

/-- Settles O55: byte `n` of the seed is byte `n % 4` of word `n / 4`. -/
theorem seedPackingIsLittleEndian : Obligations.SeedPackingIsLittleEndian := by
  constructor
  · intro w k j
    have hdiv : (4 * k.val + j.val) / 4 = k.val := by omega
    have hmod : (4 * k.val + j.val) % 4 = j.val := by omega
    have hlt : 4 * k.val + j.val < 32 := by omega
    simp [seedOfWords, hlt, hdiv, hmod]
  · intro x
    refine Vector.ext fun n hn => ?_
    have hbyte := wordOfBytes_byte x ⟨n / 4, by omega⟩ ⟨n % 4, by omega⟩
    simpa [seedOfWords, wordsOfSeed, Nat.div_add_mod] using hbyte

/-- The offset of quarter `q` of node slot `i` (10_state.md R39). -/
theorem regAt_node (i : Fin 32) (q : Fin 8) : regAt (0x400 + 32 * i.val + 4 * q.val) = .node i q := by
  have hslot : (0x400 + 32 * i.val + 4 * q.val - 0x400) / 32 = i.val := by omega
  have hquarter : (0x400 + 32 * i.val + 4 * q.val - 0x400) % 32 / 4 = q.val := by omega
  unfold regAt
  simp (disch := omega) only [if_neg, if_pos, hslot, hquarter, Fin.ofNat_eq_cast, Fin.cast_val_eq_self]

/-- CMD, SEED_IN and the reserved offsets read 0 (10_state.md R28, R38, R40). -/
theorem State.quietReg_eq_zero (s : State) {off : Nat}
    (h : off = 0x000 ∨ (0x028 ≤ off ∧ off < 0x400) ∨ 0x800 ≤ off) : s.quietReg (regAt off) = 0#32 := by
  obtain rfl | hoff := h
  · rfl
  · unfold regAt
    simp (disch := omega) only [if_neg]
    split <;> rfl

/-- The reserved bits of a STATUS word are 0 (10_state.md R29). -/
theorem statusWord_reserved : ∀ a b c, (statusWord a b c).getLsbD 3 = false ∧
    (statusWord a b c).extractLsb' 8 24 = 0#24 := by decide

/-- The STATUS word has the codes of 10_state.md R23 and 60_exceptions.md R180 in its fields. -/
theorem statusReads_quietReg (s : State) : StatusReads s (s.quietReg .status) := by
  have hstate : (s.quietReg .status).extractLsb' 0 2 = stCode s.st := stateField_statusWord _ _ _
  have hbusy : (s.quietReg .status).getLsbD 2 = s.busy := busyField_statusWord _ _ _
  have herr : (s.quietReg .status).extractLsb' 4 4 = errCode s.err := errField_statusWord _ _ _
  obtain ⟨hbit3, hhigh⟩ := statusWord_reserved (stCode s.st) s.busy (errCode s.err)
  unfold StatusReads
  rw [hstate, hbusy, herr]
  refine ⟨?_, ?_, ?_, ?_, rfl, hbit3, ?_, ?_, ?_, ?_, ?_, ?_, hhigh⟩ <;> (intro h; rw [h]; rfl)

/-- `LB` is a number below `2^37` (10_state.md R36). -/
theorem State.lastByte_eq (s : State) : s.lastByte = (2 ^ s.depth.val - 1) * 32 ∧ s.lastByte < 2 ^ 37 := by
  have hm : s.mask.toNat = 2 ^ s.depth.val - 1 := maskOf_toNat _ (by omega)
  have hlt := s.mask.isLt
  unfold State.lastByte
  omega

theorem State.quietReg_lastByteLo (s : State) :
    (s.quietReg .lastByteLo).toNat = (2 ^ s.depth.val - 1) * 32 % 2 ^ 32 := by
  rw [← s.lastByte_eq.1]
  exact BitVec.toNat_ofNat _ _

theorem State.quietReg_lastByteHi (s : State) :
    (s.quietReg .lastByteHi).toNat = (2 ^ s.depth.val - 1) * 32 / 2 ^ 32 ∧
      (s.quietReg .lastByteHi).toNat ≤ 0x1F := by
  obtain ⟨heq, hlt⟩ := s.lastByte_eq
  have hval : (s.quietReg .lastByteHi).toNat = s.lastByte / 2 ^ 32 :=
    (BitVec.toNat_ofNat _ _).trans (Nat.mod_eq_of_lt (by omega))
  rw [hval, ← heq]
  exact ⟨rfl, by omega⟩

theorem State.quietReg_node (s : State) (i : Fin 32) (q : Fin 8) (j : Fin 4) :
    (s.nodes[i.val])[4 * q.val + j.val]? = some ((s.quietReg (.node i q)).extractLsb' (8 * j.val) 8) := by
  rw [State.quietReg, wordOfBytes_byte]
  exact Vector.getElem?_eq_getElem (by omega)

/-- What a 24-bit count in a 32-bit register shows (10_state.md R31). -/
theorem low24_fields (v : Word) :
    ((v.setWidth 24).setWidth 32).extractLsb' 0 24 = v.extractLsb' 0 24 ∧
      ((v.setWidth 24).setWidth 32).extractLsb' 24 8 = 0#8 := by
  constructor <;> ext i hi
  · have hlt : i < 32 := by omega
    simp [hi, hlt]
  · simp

/-- A register field below 33 reads as itself (10_state.md R32, R34). -/
theorem toNat_ofNat_fin33 (n : Fin 33) : (BitVec.ofNat 32 n.val).toNat = n.val :=
  (BitVec.toNat_ofNat _ _).trans (Nat.mod_eq_of_lt (by omega))

/-- Settles O49: the read answers the register's quiet value, register by register. -/
theorem registersReadAsSpecified : Obligations.RegistersReadAsSpecified := by
  intro s off hb hoff h4
  refine ⟨s.quietReg (regAt off), ?_, ?_, ?_, ?_, ?_, ?_, ?_, ?_, ?_, ?_, ?_, s.quietReg_eq_zero⟩
  · rw [s.memRead_at off hoff h4, s.readReg_quiet _ hb]
    rfl
  · rintro rfl
    exact statusReads_quietReg s
  · rintro rfl
    rfl
  · rintro rfl
    exact low24_fields s.result
  · rintro rfl
    exact toNat_ofNat_fin33 s.depth
  · rintro rfl
    rfl
  · rintro rfl
    exact toNat_ofNat_fin33 s.offset
  · rintro rfl
    exact maskOf_toNat _ (by omega)
  · rintro rfl
    exact s.quietReg_lastByteLo
  · rintro rfl
    exact s.quietReg_lastByteHi
  · rintro i q j rfl
    rw [regAt_node]
    exact s.quietReg_node i q j

end Sys2Proof.Machine
end

section
/-! SUPPORT. What the host sees does not depend on the seed (10_state.md R38), and its side of the channels (R37). -/

namespace Sys2Proof.Machine

/-- The state with another seed and other words in SEED_IN. -/
def State.withSeed (s : State) (x : B32) (w : Vector Word 8) : State := { s with seed := x, seedIn := w }

section
variable {s t : State} (x : B32) (w : Vector Word 8)

theorem State.quietReg_withSeed (s : State) (r : Reg) : (s.withSeed x w).quietReg r = s.quietReg r := by
  cases r <;> rfl

/-- No register shows the seed or SEED_IN, and no draw depends on them (10_state.md R38). -/
theorem State.readReg_withSeed (s : State) (r : Reg) :
    (s.withSeed x w).readReg r = ((s.readReg r).1, (s.readReg r).2.withSeed x w) := by
  have hbusy : (s.withSeed x w).busy = s.busy := rfl
  cases hb : s.busy with
  | false =>
    rw [s.readReg_quiet r hb, (s.withSeed x w).readReg_quiet r (hbusy.trans hb), s.quietReg_withSeed]
  | true =>
    unfold State.readReg
    rw [if_pos hb, if_pos (hbusy.trans hb)]
    cases r <;> rfl

theorem State.statusSeen_withSeed (s : State) : (s.withSeed x w).statusSeen = s.statusSeen.withSeed x w := by
  unfold State.statusSeen
  rw [s.readReg_withSeed]
  rfl

theorem State.memRead_withSeed {addr width : Nat} {r : Word × State} (h : s.memRead addr width = .next r) :
    (s.withSeed x w).memRead addr width = .next (r.1, r.2.withSeed x w) := by
  unfold State.memRead at h ⊢
  split at h
  · rw [s.readReg_withSeed]
    cases h
    rfl
  · cases h
  · cases h

/-- A move that branches on what does not depend on the seed. -/
theorem next_ite_withSeed {c : Prop} [Decidable c] {a b a' b' : State} (ha : a' = a.withSeed x w)
    (hb : b' = b.withSeed x w) (h : (.next (if c then a else b) : Result) = .next t) :
    (.next (if c then a' else b') : Result) = .next (t.withSeed x w) := by
  cases h
  rw [ha, hb, apply_ite (State.withSeed · x w)]

theorem State.stopOnFailure_withSeed (h : s.stopOnFailure = .next t) :
    (s.withSeed x w).stopOnFailure = .next (t.withSeed x w) := by
  rw [s.stopOnFailure_eq] at h
  rw [State.stopOnFailure_eq, s.statusSeen_withSeed]
  exact next_ite_withSeed x w rfl rfl h

theorem State.pushElse_withSeed {b : Byte} {full full' : Result}
    (hfull : full = .next t → full' = .next (t.withSeed x w)) (h : s.pushElse b full = .next t) :
    (s.withSeed x w).pushElse b full' = .next (t.withSeed x w) := by
  unfold State.pushElse at h ⊢
  split at h
  · next hroom =>
    cases h
    exact if_pos hroom
  · next hroom => exact (if_neg hroom).trans (hfull h)

theorem State.popDoutElse_withSeed {empty empty' : Result}
    (hempty : empty = .next t → empty' = .next (t.withSeed x w)) (h : s.popDoutElse empty = .next t) :
    (s.withSeed x w).popDoutElse empty' = .next (t.withSeed x w) := by
  cases hq : s.dout with
  | nil =>
    rw [s.popDoutElse_nil empty hq] at h
    exact (State.popDoutElse_nil (s := s.withSeed x w) empty' hq).trans (hempty h)
  | cons b q =>
    rw [s.popDoutElse_cons empty hq] at h
    cases h
    exact State.popDoutElse_cons (s := s.withSeed x w) empty' hq

/-- A host operation other than a write does the same whatever the seed and SEED_IN are (10_state.md R38). -/
theorem hostStep_withSeed (hw : ∀ addr width v rest, s.script ≠ .write addr width v :: rest)
    (h : hostStep s = .next t) : hostStep (s.withSeed x w) = .next (t.withSeed x w) := by
  have hops : (s.withSeed x w).script = s.script := rfl
  cases hs : s.script with
  | nil =>
    rw [hostStep_nil hs] at h
    cases h
    exact hostStep_nil hs
  | cons op rest =>
    rw [hs] at hops
    cases op with
    | write addr width v => exact absurd hs (hw addr width v rest)
    | read addr width =>
      obtain ⟨r, hr, rfl⟩ := hostStep_read hs h
      have hread : (s.withSeed x w).opDone.memRead addr width = _ := State.memRead_withSeed x w hr
      unfold hostStep
      rw [hops]
      dsimp only
      rw [hread]
    | push b =>
      rw [hostStep_push hs] at h
      rw [hostStep_push hops]
      refine State.pushElse_withSeed x w (fun hf => ?_) h
      cases hf
      rfl
    | popKs =>
      cases hq : s.ksOut with
      | nil =>
        rw [hostStep_popKs_empty hs hq] at h
        cases h
        exact hostStep_popKs_empty hs hq
      | cons b q =>
        rw [hostStep_popKs hs hq] at h
        cases h
        exact hostStep_popKs hs hq
    | popDout =>
      rw [hostStep_popDout hs] at h
      rw [hostStep_popDout hops]
      refine State.popDoutElse_withSeed x w (fun hf => ?_) h
      cases hf
      rfl
    | pushOrStop b =>
      rw [hostStep_pushOrStop hs] at h
      rw [hostStep_pushOrStop hops]
      exact State.pushElse_withSeed x w (State.stopOnFailure_withSeed x w) h
    | popDoutOrStop =>
      rw [hostStep_popDoutOrStop hs] at h
      rw [hostStep_popDoutOrStop hops]
      exact State.popDoutElse_withSeed x w (State.stopOnFailure_withSeed x w) h
    | wait =>
      rw [hostStep_wait hs] at h
      rw [hostStep_wait hops, s.statusSeen_withSeed]
      exact next_ite_withSeed x w rfl rfl h
    | check =>
      rw [hostStep_check hs] at h
      rw [hostStep_check hops, s.statusSeen_withSeed, s.readReg_withSeed]
      exact next_ite_withSeed x w rfl rfl h
    | checkCapacity len =>
      rw [hostStep_checkCapacity hs] at h
      rw [hostStep_checkCapacity hops]
      exact next_ite_withSeed x w rfl rfl h
    | checkCapacityFrom p0 len =>
      rw [hostStep_checkCapacityFrom hs] at h
      rw [hostStep_checkCapacityFrom hops]
      exact next_ite_withSeed x w rfl rfl h

/-- A write leaves the host's record, and takes one operation off its program (20_memory.md R67). -/
theorem hostStep_write_agent {addr width : Nat} {v : Word} {rest : List HostOp}
    (hs : s.script = .write addr width v :: rest) (h : hostStep s = .next t) : t.log = s.log ∧ t.script = rest := by
  have hdone : s.opDone.script = rest := by rw [State.opDone_script, hs, List.tail_cons]
  rw [hostStep_write hs] at h
  obtain ⟨off, -, rfl⟩ := State.memWrite_next h
  by_cases hcmd : regAt off = .cmd
  · rw [hcmd]
    change (s.opDone.writeCmd v).log = _ ∧ (s.opDone.writeCmd v).script = _
    unfold State.writeCmd
    split <;> [split; skip] <;> exact ⟨rfl, hdone⟩
  · obtain ⟨a, w, hstored⟩ := s.opDone.writeReg_operand v hcmd
    rw [hstored]
    exact ⟨rfl, hdone⟩

/-- Settles O53: a write tells the host nothing, and every other operation does the same for every seed. -/
theorem seedCannotBeReadBack : Obligations.SeedCannotBeReadBack := by
  intro s t t' x w h h'
  by_cases hw : ∃ addr width v rest, s.script = .write addr width v :: rest
  · obtain ⟨addr, width, v, rest, hs⟩ := hw
    obtain ⟨hlog, hops⟩ := hostStep_write_agent hs h
    obtain ⟨hlog', hops'⟩ := hostStep_write_agent (s := s.withSeed x w) hs h'
    exact ⟨hlog'.trans hlog.symm, hops'.trans hops.symm⟩
  · push Not at hw
    have ht : t' = t.withSeed x w := Host.Outcome.next.inj (h'.symm.trans (hostStep_withSeed x w hw h))
    rw [ht]
    exact ⟨rfl, rfl⟩

end

/-- Settles O58: pushes and pops with room or a byte to take, and the waits of the plain ones. -/
theorem channelsAreBoundedFifos : Obligations.ChannelsAreBoundedFifos := by
  intro s b rest q
  refine ⟨?_, ?_, hostStep_popKs, hostStep_popKs_empty, ?_, ?_, ?_, ?_⟩
  · intro hs hroom
    rw [hostStep_push hs, s.pushElse_room _ hroom, hs, List.tail_cons]
  · intro hs hfull
    rw [hostStep_push hs, s.pushElse_full _ (by omega)]
  · intro hs hq
    rw [hostStep_popDout hs, s.popDoutElse_cons _ hq, hs, List.tail_cons]
  · intro hs hq
    rw [hostStep_popDout hs, s.popDoutElse_nil _ hq]
  · intro hs hroom
    rw [hostStep_pushOrStop hs, s.pushElse_room _ hroom, hs, List.tail_cons]
  · intro hs hq
    rw [hostStep_popDoutOrStop hs, s.popDoutElse_cons _ hq, hs, List.tail_cons]

end Sys2Proof.Machine
end

section
/-! SUPPORT. Which accesses write the engine and which are refused (20_memory.md R62, R65, R67). -/

namespace Sys2Proof.Machine

/-- ARG_PATH stands at offset 8 only (10_state.md R30). -/
theorem regAt_eq_argPath {off : Nat} (h : regAt off = .argPath) : off = 0x008 := by
  obtain ⟨-, -, hoff⟩ : ¬off = 0 ∧ ¬off = 4 ∧ off = 8 := by simpa [regAt, ite_eq_iff] using h
  exact hoff

/-- SEED_IN stands at offsets 0x040 to 0x05F only (10_state.md R38). -/
theorem regAt_eq_seedIn {off : Nat} {k : Fin 8} (h : regAt off = .seedIn k) : 0x040 ≤ off ∧ off < 0x060 := by
  simp only [regAt, ite_eq_iff, reduceCtorEq, and_false, false_or] at h
  tauto

/-- The offset of word `k` of SEED_IN (10_state.md R38). -/
theorem regAt_seedIn (k : Fin 8) : regAt (0x040 + 4 * k.val) = .seedIn k := by
  have hword : (0x040 + 4 * k.val - 0x040) / 4 = k.val := by omega
  unfold regAt
  simp (disch := omega) only [if_neg, if_pos, hword, Fin.ofNat_eq_cast, Fin.cast_val_eq_self]

/-- Every register but CMD, ARG_PATH and SEED_IN ignores a write (20_memory.md R67). -/
theorem State.writeReg_ignored (s : State) {r : Reg} (v : Word) (hcmd : r ≠ .cmd) (harg : r ≠ .argPath)
    (hseed : ∀ k, r ≠ .seedIn k) : s.writeReg r v = s := by
  cases r with
  | cmd => exact absurd rfl hcmd
  | argPath => exact absurd rfl harg
  | seedIn k => exact absurd rfl (hseed k)
  | _ => rfl

/-- Settles O48: the write reaches the register at its offset, and no other offset holds CMD, ARG_PATH or a word of
SEED_IN. -/
theorem writesStoreOrAreIgnored : Obligations.WritesStoreOrAreIgnored := by
  intro s v
  refine ⟨s.memWrite_at 0x008 v (by decide) (by decide), ?_, ?_⟩
  · intro k
    rw [s.memWrite_at _ v (by omega) (by omega), regAt_seedIn]
    rfl
  · intro off hoff h4 hcmd harg hseed
    rw [s.memWrite_at off v hoff h4, s.writeReg_ignored v]
    · exact fun h => hcmd (regAt_eq_cmd h)
    · exact fun h => harg (regAt_eq_argPath h)
    · intro k h
      obtain ⟨hlo, hhi⟩ := regAt_eq_seedIn h
      omega

/-- Settles O51: such an access reaches no offset of the window, for reads and writes alike. -/
theorem unalignedOrNarrowAccessesAreRefused : Obligations.UnalignedOrNarrowAccessesAreRefused := by
  intro s addr width v hlo hhi hbad
  have hacc : windowAccess addr width = .undefined := windowAccess_undefined addr width hlo hhi hbad
  unfold State.memRead State.memWrite
  rw [hacc]
  exact ⟨rfl, rfl⟩

end Sys2Proof.Machine
end

section
/-! SUPPORT. The decoder field by field and the opcode map row by row (30_encoding.md R80 to R84), and the statements
about the encoding of commands. -/

namespace Sys2Proof.Machine

open Sys2Proof.Laws

/-- The operand field of a command's format, 0 for format Z (30_encoding.md R81). -/
def rowOperand : Instr → Word → Nat
  | .create _, v => fieldF6 v
  | .goto, _ => 0
  | .compute _, v => fieldF6 v
  | .read _, v => fieldLen v
  | .readExact _, v => fieldLen v
  | .xor _, v => fieldLen v
  | .reset, _ => 0

/-- The reserved bits of a command's format above bit 7 are 0 (30_encoding.md R80). -/
def ReservedClear : Instr → Word → Prop
  | .create _, v => v.extractLsb' 14 18 = 0#18
  | .goto, v => v.extractLsb' 4 28 = 0#28
  | .compute _, v => v.extractLsb' 14 18 = 0#18
  | .read _, _ => True
  | .readExact _, _ => True
  | .xor _, _ => True
  | .reset, v => v.extractLsb' 4 28 = 0#28

section
variable (v w : Word) (i : Instr) (op : BitVec 4)

/-- A word decodes to a command exactly when its fields are those of the command's format (30_encoding.md R83). -/
theorem decode_eq_ok_iff_fields :
    decode v = .ok i ↔ v.extractLsb' 4 4 = 0#4 ∧ v.extractLsb' 0 4 = BitVec.ofNat 4 (opcodeOf i) ∧
      ReservedClear i v ∧ rowOperand i v = operandOf i := by
  rw [decode_eq_ok]
  cases i <;> simp [opcodeOf, operandOf, ReservedClear, rowOperand]

/-- A word is its reserved, operand, reserved and opcode fields, one above the other (30_encoding.md R80). -/
theorem word_toNat : v.toNat = (v.extractLsb' 14 18).toNat * 2 ^ 14 + (v.extractLsb' 8 6).toNat * 2 ^ 8 +
    (v.extractLsb' 4 4).toNat * 2 ^ 4 + (v.extractLsb' 0 4).toNat := by
  simp only [BitVec.extractLsb'_toNat, Nat.shiftRight_eq_div_pow]
  omega

/-- Words with the same fields are the same word: no bit is outside the fields (30_encoding.md R80). -/
theorem word_eq_iff_fields :
    v = w ↔ v.extractLsb' 14 18 = w.extractLsb' 14 18 ∧ v.extractLsb' 8 6 = w.extractLsb' 8 6 ∧
      v.extractLsb' 4 4 = w.extractLsb' 4 4 ∧ v.extractLsb' 0 4 = w.extractLsb' 0 4 := by
  refine ⟨fun h => h ▸ ⟨rfl, rfl, rfl, rfl⟩, fun ⟨h14, h8, h4, h0⟩ => BitVec.eq_of_toNat_eq ?_⟩
  rw [word_toNat v, word_toNat w, h14, h8, h4, h0]

/-- The matches of the opcode map have the opcode in bits 3:0 and nothing above (30_encoding.md R82). -/
theorem match_fields : ∀ op : BitVec 4,
    (0#28 ++ op).extractLsb' 14 18 = 0#18 ∧ (0#28 ++ op).extractLsb' 8 6 = 0#6 ∧
    (0#28 ++ op).extractLsb' 4 4 = 0#4 ∧ (0#28 ++ op).extractLsb' 0 4 = op := by decide

/-- A word of format Z is its opcode (30_encoding.md R80). -/
theorem word_eq_opcode_iff :
    v = 0#28 ++ op ↔ v.extractLsb' 4 4 = 0#4 ∧ v.extractLsb' 0 4 = op ∧ v.extractLsb' 4 28 = 0#28 := by
  obtain ⟨m14, m8, m4, m0⟩ := match_fields op
  have hz : v.extractLsb' 4 28 = 0#28 ↔
      v.extractLsb' 14 18 = 0#18 ∧ v.extractLsb' 8 6 = 0#6 ∧ v.extractLsb' 4 4 = 0#4 := by
    simp only [← BitVec.toNat_inj, BitVec.extractLsb'_toNat, Nat.shiftRight_eq_div_pow, BitVec.toNat_ofNat]
    omega
  rw [word_eq_iff_fields, m14, m8, m4, m0, hz]
  tauto

/-- The mask of format F6 leaves the reserved bits and the opcode (30_encoding.md R82). -/
theorem and_maskF6_eq_iff :
    v &&& 0xFFFFC0FF#32 = 0#28 ++ op ↔
      v.extractLsb' 4 4 = 0#4 ∧ v.extractLsb' 0 4 = op ∧ v.extractLsb' 14 18 = 0#18 := by
  obtain ⟨m14, m8, m4, m0⟩ := match_fields op
  have k14 : (0xFFFFC0FF#32).extractLsb' 14 18 = BitVec.allOnes 18 := rfl
  have k8 : (0xFFFFC0FF#32).extractLsb' 8 6 = 0#6 := rfl
  have k4 : (0xFFFFC0FF#32).extractLsb' 4 4 = BitVec.allOnes 4 := rfl
  have k0 : (0xFFFFC0FF#32).extractLsb' 0 4 = BitVec.allOnes 4 := rfl
  rw [word_eq_iff_fields, m14, m8, m4, m0]
  simp only [BitVec.extractLsb'_and, k14, k8, k4, k0, BitVec.and_allOnes, BitVec.and_zero, true_and]
  tauto

/-- The mask of format N24 leaves the low byte (30_encoding.md R82). -/
theorem and_maskN24_eq_iff :
    v &&& 0x000000FF#32 = 0#28 ++ op ↔ v.extractLsb' 4 4 = 0#4 ∧ v.extractLsb' 0 4 = op := by
  obtain ⟨m14, m8, m4, m0⟩ := match_fields op
  have k14 : (0x000000FF#32).extractLsb' 14 18 = 0#18 := rfl
  have k8 : (0x000000FF#32).extractLsb' 8 6 = 0#6 := rfl
  have k4 : (0x000000FF#32).extractLsb' 4 4 = BitVec.allOnes 4 := rfl
  have k0 : (0x000000FF#32).extractLsb' 0 4 = BitVec.allOnes 4 := rfl
  rw [word_eq_iff_fields, m14, m8, m4, m0]
  simp only [BitVec.extractLsb'_and, k14, k8, k4, k0, BitVec.and_allOnes, BitVec.and_zero, true_and]

/-- A word selects a row by mask and match exactly when its opcode is the row's and its reserved bits are 0
(30_encoding.md R80, R82). -/
theorem and_rowMask_eq_iff :
    v &&& rowMask i = rowMatch i ↔
      v.extractLsb' 4 4 = 0#4 ∧ v.extractLsb' 0 4 = BitVec.ofNat 4 (opcodeOf i) ∧ ReservedClear i v := by
  have hZ : v &&& 0xFFFFFFFF#32 = v := BitVec.and_allOnes
  have hN24 (op : BitVec 4) : v &&& 0x000000FF#32 = 0#28 ++ op ↔
      v.extractLsb' 4 4 = 0#4 ∧ v.extractLsb' 0 4 = op ∧ True := by
    rw [and_maskN24_eq_iff, and_true]
  cases i with
  | create d => exact and_maskF6_eq_iff v 0x1#4
  | goto => exact hZ.symm ▸ word_eq_opcode_iff v 0x2#4
  | compute f => exact and_maskF6_eq_iff v 0x3#4
  | read n => exact hN24 0x4#4
  | readExact n => exact hN24 0x5#4
  | xor n => exact hN24 0x6#4
  | reset => exact hZ.symm ▸ word_eq_opcode_iff v 0x7#4

/-- The opcode map of 30_encoding.md R82, row by row. -/
theorem decode_eq_ok_iff_row :
    decode v = .ok i ↔ v &&& rowMask i = rowMatch i ∧ rowOperand i v = operandOf i := by
  rw [decode_eq_ok_iff_fields, and_rowMask_eq_iff]
  tauto

/-- A word that selects a row is not ILLEGAL, whatever its operand field holds (30_encoding.md R82). -/
theorem exists_decode_of_row (h : v &&& rowMask i = rowMatch i) : ∃ j, decode v = .ok j := by
  have hrow (j : Instr) (hm : v &&& rowMask j = rowMatch j) (ho : rowOperand j v = operandOf j) :
      ∃ k, decode v = .ok k := ⟨j, (decode_eq_ok_iff_row v j).2 ⟨hm, ho⟩⟩
  cases i with
  | create d => exact hrow (.create (fieldF6 v)) h rfl
  | goto => exact hrow .goto h rfl
  | compute f => exact hrow (.compute (fieldF6 v)) h rfl
  | read n => exact hrow (.read (fieldLen v)) h rfl
  | readExact n => exact hrow (.readExact (fieldLen v)) h rfl
  | xor n => exact hrow (.xor (fieldLen v)) h rfl
  | reset => exact hrow .reset h rfl

/-- A word is ILLEGAL exactly where it selects no row (30_encoding.md R82, R84). -/
theorem decode_error_iff_no_row :
    (∃ e, decode v = .error e) ↔ ∀ i, v &&& rowMask i ≠ rowMatch i := by
  constructor
  · rintro ⟨e, he⟩ i hm
    obtain ⟨j, hj⟩ := exists_decode_of_row v i hm
    rw [he] at hj
    cases hj
  · intro hno
    cases hd : decode v with
    | error e => exact ⟨e, rfl⟩
    | ok i =>
      obtain ⟨hm, -⟩ := (decode_eq_ok_iff_row v i).1 hd
      exact absurd hm (hno i)

variable {v i}

/-- Where the reserved bits are 0, bits 31:8 hold the operand and nothing else (30_encoding.md R80, R81). -/
theorem fieldLen_eq_rowOperand (h : ReservedClear i v) : fieldLen v = rowOperand i v := by
  have hF6 (hr : v.extractLsb' 14 18 = 0#18) : fieldLen v = fieldF6 v := by
    simp only [fieldLen, fieldF6, ← BitVec.toNat_inj, BitVec.extractLsb'_toNat, Nat.shiftRight_eq_div_pow,
      BitVec.toNat_ofNat] at hr ⊢
    omega
  have hZ (hr : v.extractLsb' 4 28 = 0#28) : fieldLen v = 0 := by
    simp only [fieldLen, ← BitVec.toNat_inj, BitVec.extractLsb'_toNat, Nat.shiftRight_eq_div_pow,
      BitVec.toNat_ofNat] at hr ⊢
    omega
  cases i with
  | create d => exact hF6 h
  | goto => exact hZ h
  | compute f => exact hF6 h
  | read n => rfl
  | readExact n => rfl
  | xor n => rfl
  | reset => exact hZ h

/-- The word of a well-formed command selects its row (30_encoding.md R82, R86). -/
theorem encode_and_rowMask (h : i.WellFormed) : encode i &&& rowMask i = rowMatch i := by
  cases i with
  | create d => exact EncodesRow.create d h
  | goto => exact EncodesRow.goto h
  | compute f => exact EncodesRow.compute f h
  | read n => exact EncodesRow.read n h
  | readExact n => exact EncodesRow.readExact n h
  | xor n => exact EncodesRow.xor n h
  | reset => exact EncodesRow.reset h

/-- The word of a well-formed command carries its operand in bits 31:8 (30_encoding.md R86). -/
theorem fieldLen_encode (h : i.WellFormed) : fieldLen (encode i) = operandOf i := by
  have hop := opcodeOf_lt i
  have hor := operandOf_lt i h
  rw [fieldLen, BitVec.extractLsb'_toNat, encode_toNat i h, Nat.shiftRight_eq_div_pow]
  omega

end

/-- Settles O4: the encoding selects the command's row, its reserved bits are 0, and bits 31:8 hold the operand. -/
theorem decodeOfEncodeIsTheInstruction : Obligations.DecodeOfEncodeIsTheInstruction := by
  intro i hwf
  have hrow := encode_and_rowMask hwf
  obtain ⟨-, -, hclear⟩ := (and_rowMask_eq_iff _ i).1 hrow
  exact (decode_eq_ok_iff_row _ i).2 ⟨hrow, (fieldLen_eq_rowOperand hclear).symm.trans (fieldLen_encode hwf)⟩

/-- Settles O5: the fields of a word that decodes are those of the encoding, and a word is its fields. -/
theorem encodeOfDecodeIsTheWord : Obligations.EncodeOfDecodeIsTheWord := by
  intro v i h
  have hwf := wellFormed_of_decode v i h
  refine ⟨hwf, BitVec.eq_of_toNat_eq ?_⟩
  obtain ⟨h4, h0, hclear, hoperand⟩ := (decode_eq_ok_iff_fields v i).1 h
  have hlen : fieldLen v = operandOf i := (fieldLen_eq_rowOperand hclear).trans hoperand
  have hop : opcodeOf i < 16 := by cases i <;> simp [opcodeOf]
  rw [encode_toNat i hwf]
  simp only [fieldLen, ← BitVec.toNat_inj, BitVec.extractLsb'_toNat, Nat.shiftRight_eq_div_pow,
    BitVec.toNat_ofNat] at h4 h0 hlen
  omega

/-- Settles O6: each clause is the row of that command; a word of no row decodes to no command. -/
theorem wordSelectsRowByMaskAndMatch : Obligations.WordSelectsRowByMaskAndMatch := by
  intro v
  have hrow := decode_eq_ok_iff_row v
  have eq_swap {p : Prop} (i : Instr) : p ∧ rowOperand i v = operandOf i ↔ p ∧ operandOf i = rowOperand i v := by
    rw [eq_comm]
  refine ⟨fun d => (hrow _).trans (eq_swap _), (hrow .goto).trans (and_iff_left rfl),
    fun f => (hrow _).trans (eq_swap _), fun n => (hrow _).trans (eq_swap _),
    fun n => (hrow _).trans (eq_swap _), fun n => (hrow _).trans (eq_swap _),
    (hrow .reset).trans (and_iff_left rfl), ?_⟩
  rw [decode_error_iff_no_row]
  constructor
  · intro hno
    exact ⟨hno (.create 0), hno .goto, hno (.compute 0), hno (.read 0), hno (.readExact 0), hno (.xor 0),
      hno .reset⟩
  · rintro ⟨hcreate, hgoto, hcompute, hread, hreadExact, hxor, hreset⟩ i
    cases i with
    | create d => exact hcreate
    | goto => exact hgoto
    | compute f => exact hcompute
    | read n => exact hread
    | readExact n => exact hreadExact
    | xor n => exact hxor
    | reset => exact hreset

/-- The opcode field is one of the seven of the opcode map or a reserved one (30_encoding.md R82). -/
theorem opcode_cases : ∀ op : BitVec 4,
    op = 0x0#4 ∨ op = 0x1#4 ∨ op = 0x2#4 ∨ op = 0x3#4 ∨ op = 0x4#4 ∨ op = 0x5#4 ∨
    op = 0x6#4 ∨ op = 0x7#4 ∨ 0x8#4 ≤ op := by decide

/-- Settles O7: where bits 7:4 are 0, the opcode decides which reserved bits there are above them. -/
theorem illegalWordsAreExactlyTheReservedOnes : Obligations.IllegalWordsAreExactlyTheReservedOnes := by
  intro v
  rw [decode_error_iff_no_row]
  constructor
  · intro hno
    by_contra hres
    simp only [not_or, not_and, not_not] at hres
    obtain ⟨h0, h8, h4, hF6, hZ⟩ := hres
    have hrow (i : Instr) (hop : v.extractLsb' 0 4 = BitVec.ofNat 4 (opcodeOf i)) : ¬ ReservedClear i v :=
      fun hc => hno i ((and_rowMask_eq_iff v i).2 ⟨h4, hop, hc⟩)
    obtain h | h | h | h | h | h | h | h | h := opcode_cases (v.extractLsb' 0 4)
    · exact h0 h
    · exact hrow (.create 0) h (hF6 (.inl h))
    · exact hrow .goto h (hZ (.inl h))
    · exact hrow (.compute 0) h (hF6 (.inr h))
    · exact hrow (.read 0) h trivial
    · exact hrow (.readExact 0) h trivial
    · exact hrow (.xor 0) h trivial
    · exact hrow .reset h (hZ (.inr h))
    · exact h8 h
  · intro hres i hm
    obtain ⟨h4, hop, hclear⟩ := (and_rowMask_eq_iff v i).1 hm
    rw [hop, h4] at hres
    cases i with
    | create d => exact absurd hclear (by simpa [opcodeOf, ReservedClear] using hres)
    | goto => exact absurd hclear (by simpa [opcodeOf, ReservedClear] using hres)
    | compute f => exact absurd hclear (by simpa [opcodeOf, ReservedClear] using hres)
    | read n => simp [opcodeOf] at hres
    | readExact n => simp [opcodeOf] at hres
    | xor n => simp [opcodeOf] at hres
    | reset => exact absurd hclear (by simpa [opcodeOf, ReservedClear] using hres)

/-- Settles O3: the decoder evaluated on the twelve words. -/
theorem specWordsDecode : Obligations.SpecWordsDecode := by
  unfold Obligations.SpecWordsDecode
  decide

end Sys2Proof.Machine
end

section
/-! SUPPORT. What SETSEED, WAIT, CHECK and the waiting chunk loop do (30_encoding.md R87; 41_cipher.md R155). -/

namespace Sys2Proof.Machine

/-- SEED_IN after writes of the words `f k`, for the `k` of the list in order (10_state.md R38). -/
def seedWordsStored (f : Fin 8 → Word) (ks : List (Fin 8)) (w : Vector Word 8) : Vector Word 8 :=
  ks.foldl (fun w k => w.set k.val (f k)) w

section
variable {s : State} {rest : List HostOp} {ts : List Turn}

/-- Each written word of SEED_IN holds its value, each other one what it held. -/
theorem seedWordsStored_getElem (f : Fin 8 → Word) (ks : List (Fin 8)) (w : Vector Word 8) (j : Fin 8) :
    (seedWordsStored f ks w)[j.val] = if j ∈ ks then f j else w[j.val] := by
  induction ks generalizing w with
  | nil => rfl
  | cons k ks ih =>
    rw [seedWordsStored, List.foldl_cons, ← seedWordsStored, ih]
    by_cases hk : k = j
    · subst hk; simp
    · simp [Fin.val_inj, hk, Ne.symm hk]

/-- Writes of all eight words leave SEED_IN at the words written. -/
theorem seedWordsStored_finRange (f : Fin 8 → Word) (w : Vector Word 8) :
    seedWordsStored f (List.finRange 8) w = Vector.ofFn f := by
  refine Vector.ext fun j hj => ?_
  have hstored := seedWordsStored_getElem f (List.finRange 8) w ⟨j, hj⟩
  simpa using hstored

/-- The host's write of word `k` of SEED_IN, busy or not (10_state.md R38, 70_reset_and_hazards.md R226). -/
theorem step_writeSeedIn (k : Fin 8) (v : Word) (hs : s.script = writeAt (0x040 + 4 * k.val) v :: rest)
    (ht : s.turns = .host :: ts) :
    step s = .next { s with seedIn := s.seedIn.set k.val v, script := rest, turns := ts } := by
  rw [step_host_turn s ts ht,
    hostStep_writeAt { s with turns := ts } (0x040 + 4 * k.val) v rest hs (by omega) (by omega), regAt_seedIn]
  simp [State.writeReg, State.opDone, hs]

/-- The host's writes of words of SEED_IN, one host move each. -/
theorem runSteps_writeSeedIn (f : Fin 8 → Word) (ks : List (Fin 8))
    (hs : s.script = ks.map (fun k => writeAt (0x040 + 4 * k.val) (f k)) ++ rest)
    (ht : s.turns = List.replicate ks.length .host ++ ts) :
    runSteps ks.length s = .next { s with seedIn := seedWordsStored f ks s.seedIn, script := rest, turns := ts } := by
  induction ks generalizing s with
  | nil =>
    cases s
    cases hs
    cases ht
    rfl
  | cons k ks ih =>
    rw [List.length_cons, runSteps, step_writeSeedIn k (f k) hs ht]
    exact ih rfl rfl

/-- SETSEED in eight host moves, the turns after them left as they are (30_encoding.md R87). -/
theorem runSteps_setSeed (x : B32) (hs : s.script = setSeed x ++ rest)
    (ht : s.turns = List.replicate 8 .host ++ ts) :
    runSteps 8 s = .next { s with seedIn := wordsOfSeed x, script := rest, turns := ts } := by
  have hrun := runSteps_writeSeedIn (wordOfBytes x) (List.finRange 8) hs ht
  rwa [seedWordsStored_finRange] at hrun

/-- Reading STATUS leaves the host's program (20_memory.md R67). -/
@[simp] theorem State.statusSeen_script (s : State) : s.statusSeen.script = s.script := by rw [s.statusSeen_eq]

/-- WAIT stays in the program exactly while BUSY is 1 (30_encoding.md R87). -/
theorem hostStep_wait_script (hs : s.script = .wait :: rest) :
    ∃ t, hostStep s = .next t ∧ t.script = if s.busy then s.script else rest := by
  refine ⟨_, hostStep_wait hs, ?_⟩
  cases s.busy
  · simp [hs]
  · exact s.statusSeen_script

/-- CHECK while BUSY is 0 stops the program exactly in FAULT (30_encoding.md R87). -/
theorem hostStep_check_script (hs : s.script = .check :: rest) (hb : s.busy = false) :
    ∃ t, hostStep s = .next t ∧ t.script = if s.st = .fault then [] else rest := by
  refine ⟨_, hostStep_check hs, ?_⟩
  simp only [stateField_status s hb, stCode_eq_three]
  split
  · rfl
  · simp [hs]

/-- What a push or pop of the chunk loop that cannot be done changes (41_cipher.md R155; log 20, 27). -/
theorem State.stopOnFailure_script (s : State) :
    ∃ t, s.stopOnFailure = .next t ∧ t.script = (if s.busy = false ∧ s.st = .fault then [] else s.script) ∧
      t = { s with script := t.script, log := t.log, draws := t.draws } := by
  refine ⟨_, s.stopOnFailure_eq, ?_⟩
  rw [s.statusSeen_eq]
  split
  · exact ⟨rfl, rfl⟩
  · exact ⟨rfl, rfl⟩

end

/-- Settles O56: no turn is left after the eight host moves. -/
theorem setSeedStoresTheSeed : Obligations.SetSeedStoresTheSeed :=
  fun _ x _ hs ht => runSteps_setSeed x hs (ht.trans (List.append_nil _).symm)

/-- Settles O59: a pop from an empty DOUT and a push into a full DIN do the same. -/
theorem waitAndCheckFollowStatus : Obligations.WaitAndCheckFollowStatus := by
  intro s b rest
  refine ⟨hostStep_wait_script, hostStep_check_script, ?_⟩
  rintro (⟨hs, hempty⟩ | ⟨hs, hfull⟩)
  · rw [hostStep_popDoutOrStop hs, s.popDoutElse_nil _ hempty]
    exact s.stopOnFailure_script
  · rw [hostStep_pushOrStop hs, s.pushElse_full _ (by omega)]
    exact s.stopOnFailure_script

end Sys2Proof.Machine
end

section
/-! SUPPORT. The path arithmetic of the divergence level (40_keystream.md R102) and of the sequential advance (R115):
the counts of leading and trailing one bits as properties of bits. -/

namespace Sys2Proof.Machine

section
variable (x : Word)

/-- The bit where the count of leading ones ends is zero (00_scope.md R11). -/
theorem leadingOnes_end (k : Nat) (h : leadingOnes x k < k) : x.getLsbD (k - 1 - leadingOnes x k) = false := by
  induction k with
  | zero => omega
  | succ k ih =>
    rw [leadingOnes] at h ⊢
    split at h
    · next hb =>
      rw [if_pos hb, show k + 1 - 1 - (leadingOnes x k + 1) = k - 1 - leadingOnes x k by omega]
      exact ih (by omega)
    · next hb =>
      rw [if_neg hb]
      simpa using hb

/-- The bits that `lo32` counts are one, the next lower one is zero (00_scope.md R11). -/
theorem lo32_spec : lo32 x ≤ 32 ∧ (∀ k, 32 - lo32 x ≤ k → k < 32 → x.getLsbD k = true) ∧
    (lo32 x < 32 → x.getLsbD (31 - lo32 x) = false) :=
  ⟨lo32_le x, leadingOnes_bit x 32, leadingOnes_end x 32⟩

/-- `lo32` is where the ones from bit 31 down end (00_scope.md R11). -/
theorem lo32_eq_of_bits {n : Nat} (hn : n < 32) (hones : ∀ k, 32 - n ≤ k → k < 32 → x.getLsbD k = true)
    (hzero : x.getLsbD (31 - n) = false) : lo32 x = n := by
  have hle : n ≤ lo32 x := le_leadingOnes x 32 n (by omega) hones
  by_contra hne
  have hone : x.getLsbD (31 - n) = true := leadingOnes_bit x 32 (31 - n) (by unfold lo32 at *; omega) (by omega)
  simp [hzero] at hone

/-- The bits that are counted are one, and the one above them, if it is in the word, is zero. -/
theorem trailingOnesFrom_spec (k : Nat) (hk : k ≤ 32) : trailingOnesFrom x k ≤ k ∧
    (∀ j, 32 - k ≤ j → j < 32 - k + trailingOnesFrom x k → x.getLsbD j = true) ∧
    (trailingOnesFrom x k < k → x.getLsbD (32 - k + trailingOnesFrom x k) = false) := by
  induction k with
  | zero => exact ⟨le_refl 0, fun j h1 h2 => by simp [trailingOnesFrom] at h2; omega, nofun⟩
  | succ k ih =>
    obtain ⟨hle, hones, hzero⟩ := ih (by omega)
    rw [trailingOnesFrom]
    split
    · next hb =>
      have hnext : 32 - (k + 1) + (trailingOnesFrom x k + 1) = 32 - k + trailingOnesFrom x k := by omega
      rw [hnext]
      refine ⟨by omega, fun j h1 h2 => ?_, fun h => hzero (by omega)⟩
      by_cases hj : j = 31 - k
      · exact hj ▸ hb
      · exact hones j (by omega) h2
    · next hb =>
      refine ⟨by omega, fun j h1 h2 => by omega, fun _ => ?_⟩
      rw [show 32 - (k + 1) + 0 = 31 - k by omega]
      simpa using hb

/-- The low bits of a path with `t` trailing ones: `t` ones below a zero (40_keystream.md R115). -/
theorem mod_two_pow_trailingOnes (h : trailingOnes x < 32) :
    x.toNat % 2 ^ (trailingOnes x + 1) = 2 ^ trailingOnes x - 1 := by
  obtain ⟨-, hones, hzero⟩ := trailingOnesFrom_spec x 32 (le_refl 32)
  refine Nat.eq_of_testBit_eq fun j => ?_
  rw [Nat.testBit_mod_two_pow, Nat.testBit_two_pow_sub_one, BitVec.testBit_toNat]
  obtain hlt | rfl | hgt := Nat.lt_trichotomy j (trailingOnes x)
  · have hone : x.getLsbD j = true := hones j (by omega) (by rw [trailingOnes] at hlt; omega)
    simp [hlt, hone]
    omega
  · have hend : x.getLsbD (trailingOnes x) = false := by simpa [trailingOnes] using hzero h
    simp [hend]
  · simp [show ¬ j < trailingOnes x + 1 by omega, show ¬ j < trailingOnes x by omega]

/-- Below `t` trailing ones the low bits are all one. -/
theorem mod_two_pow_of_le_trailingOnes {d : Nat} (h : d ≤ trailingOnes x) : x.toNat % 2 ^ d = 2 ^ d - 1 := by
  obtain ⟨-, hones, -⟩ := trailingOnesFrom_spec x 32 (le_refl 32)
  refine Nat.eq_of_testBit_eq fun j => ?_
  rw [Nat.testBit_mod_two_pow, Nat.testBit_two_pow_sub_one, BitVec.testBit_toNat]
  by_cases hj : j < d
  · simp [hj, hones j (by omega) (by rw [trailingOnes] at h; omega)]
  · simp [hj]

/-- Adding one to a path turns its trailing ones and the zero above them, and nothing else (40_keystream.md R115). -/
theorem getLsbD_add_one (h : trailingOnes x < 32) :
    (∀ k, trailingOnes x < k → (x + 1#32).getLsbD k = x.getLsbD k) ∧
    x.getLsbD (trailingOnes x) = false ∧ (x + 1#32).getLsbD (trailingOnes x) = true := by
  have hlow := mod_two_pow_trailingOnes x h
  set t := trailingOnes x
  have hpos : 0 < 2 ^ t := Nat.two_pow_pos t
  have hdouble : 2 ^ (t + 1) = 2 * 2 ^ t := by rw [pow_succ, mul_comm]
  have hx : x.toNat = 2 ^ (t + 1) * (x.toNat / 2 ^ (t + 1)) + (2 ^ t - 1) := by
    rw [← hlow, Nat.div_add_mod]
  have hfit : 2 ^ (t + 1) * (x.toNat / 2 ^ (t + 1)) + 2 ^ t < 2 ^ 32 := by
    have hdvd : 2 ^ (t + 1) ∣ 2 ^ 32 := Nat.pow_dvd_pow 2 (by omega)
    have hq : x.toNat / 2 ^ (t + 1) + 1 ≤ 2 ^ 32 / 2 ^ (t + 1) :=
      Nat.div_lt_div_of_lt_of_dvd hdvd x.isLt
    have := Nat.mul_le_mul_left (2 ^ (t + 1)) hq
    rw [Nat.mul_div_cancel' hdvd] at this
    rw [mul_add] at this
    omega
  have hsucc : (x + 1#32).toNat = 2 ^ (t + 1) * (x.toNat / 2 ^ (t + 1)) + 2 ^ t := by
    rw [BitVec.toNat_add, show (1#32).toNat = 1 from rfl]
    omega
  refine ⟨fun k hk => ?_, ?_, ?_⟩
  · rw [← BitVec.testBit_toNat, ← BitVec.testBit_toNat, hsucc, hx, Nat.testBit_two_pow_mul_add _ (by omega),
      Nat.testBit_two_pow_mul_add _ (by omega), if_neg (by omega), if_neg (by omega), ← hx]
  · rw [← BitVec.testBit_toNat, hx, Nat.testBit_two_pow_mul_add _ (by omega), if_pos (by omega),
      Nat.testBit_two_pow_sub_one]
    simp
  · rw [← BitVec.testBit_toNat, hsucc, Nat.testBit_two_pow_mul_add _ (by omega), if_pos (by omega),
      Nat.testBit_two_pow_self]

end

section
variable {old new : Word} {d : Nat}

/-- The bit of `agree` is one exactly where the paths agree (40_keystream.md R102). -/
theorem getLsbD_agree {k : Nat} (hk : k < 32) :
    (~~~(old ^^^ new)).getLsbD k = true ↔ old.getLsbD k = new.getLsbD k := by
  simp [hk]

/-- Both spellings of `agree` (40_keystream.md R102). -/
theorem not_xor_eq_agree (old new : Word) : ~~~(old ^^^ new) = (old &&& new) ||| (~~~old &&& ~~~new) := by
  ext i hi
  simp only [BitVec.getElem_not, BitVec.getElem_xor, BitVec.getElem_or, BitVec.getElem_and]
  cases old[i] <;> cases new[i] <;> rfl

/-- A difference at or above `depth` lies above every level, so nothing can be kept (40_keystream.md R102). -/
theorem lo32_agree_lt {k : Nat} (hdk : d ≤ k) (hk : k < 32) (hne : old.getLsbD k ≠ new.getLsbD k) :
    lo32 (~~~(old ^^^ new)) < 32 - d := by
  obtain ⟨-, hones, -⟩ := lo32_spec (~~~(old ^^^ new))
  by_contra hge
  exact hne ((getLsbD_agree hk).1 (hones k (by omega) hk))

/-- Without such a difference the bits above `depth` are all counted (40_keystream.md R102). -/
theorem le_lo32_agree (hd : d ≤ 32) (h : ∀ k, d ≤ k → k < 32 → old.getLsbD k = new.getLsbD k) :
    32 - d ≤ lo32 (~~~(old ^^^ new)) :=
  le_leadingOnes _ 32 (32 - d) (by omega) fun j hj hlt => (getLsbD_agree hlt).2 (h j (by omega) hlt)

/-- Leaves before the last one have fewer trailing ones than levels (40_keystream.md R115). -/
theorem trailingOnes_lt_depth (p : Word) (hd : d ≤ 32) (h : p &&& maskOf d ≠ maskOf d) : trailingOnes p < d := by
  by_contra hge
  refine h (BitVec.eq_of_toNat_eq ?_)
  rw [and_maskOf_toNat p d hd, maskOf_toNat d hd, mod_two_pow_of_le_trailingOnes p (by omega)]

/-- The next leaf differs first at the level of the zero above the trailing ones (40_keystream.md R115). -/
theorem divergence_add_one (p : Word) (hd : d ≤ 32) (h : trailingOnes p < d) :
    divergence p (p + 1#32) d = d - 1 - trailingOnes p := by
  obtain ⟨habove, hzero, hone⟩ := getLsbD_add_one p (by omega)
  have hlo : lo32 (~~~(p ^^^ (p + 1#32))) = 31 - trailingOnes p := by
    refine lo32_eq_of_bits _ (by omega) (fun k hk hlt => ?_) ?_
    · exact (getLsbD_agree hlt).2 (habove k (by omega)).symm
    · rw [show 31 - (31 - trailingOnes p) = trailingOnes p by omega, Bool.eq_false_iff, ne_eq,
        getLsbD_agree (by omega), hzero, hone]
      exact Bool.false_ne_true
  rw [divergence, hlo]
  omega

/-- The number of trailing ones is read off the low bits. -/
theorem trailingOnes_eq_iff (p : Word) {t : Nat} (ht : t < 32) :
    trailingOnes p = t ↔ p.toNat % 2 ^ (t + 1) = 2 ^ t - 1 := by
  constructor
  · rintro rfl
    exact mod_two_pow_trailingOnes p ht
  · intro h
    have hbit (j : Nat) (hj : j ≤ t) : p.getLsbD j = decide (j < t) := by
      rw [← BitVec.testBit_toNat, ← Nat.testBit_two_pow_sub_one, ← h, Nat.testBit_mod_two_pow,
        decide_eq_true (show j < t + 1 by omega), Bool.true_and]
    obtain ⟨-, hones, hzero⟩ := trailingOnesFrom_spec p 32 (le_refl 32)
    rw [← trailingOnes] at hones hzero
    obtain hlt | heq | hgt := Nat.lt_trichotomy (trailingOnes p) t
    · have hend : p.getLsbD (trailingOnes p) = false := by simpa using hzero (by omega)
      simp [hbit _ hlt.le, hlt] at hend
    · exact heq
    · have hone := hones t (by omega) (by omega)
      simp [hbit t le_rfl] at hone

end

/-- Settles O27: `lo32` of the agreeing bits ends at the highest bit in which the paths differ. -/
theorem divergenceIsTheFirstDifferingLevel : Obligations.DivergenceIsTheFirstDifferingLevel := by
  refine ⟨lo32_spec, by decide, fun x hx => lo32_eq_of_bits x (by decide) (by omega) hx, ?_⟩
  intro old new d _ hd
  refine ⟨not_xor_eq_agree old new, ?_, divergence_le old new d hd, ?_, ?_⟩
  · unfold divergence
    omega
  · rintro ⟨k, hdk, hk, hne⟩
    have hlt := lo32_agree_lt hdk hk hne
    exact ⟨hlt, Nat.sub_eq_zero_of_le (by omega)⟩
  · intro hsame
    have hge := le_lo32_agree hd hsame
    have hdiv : divergence old new d = lo32 (~~~(old ^^^ new)) - (32 - d) := rfl
    refine ⟨fun i hi => divergence_agree old new d _ (by omega) (by omega) (by omega), fun hlt => ?_⟩
    obtain ⟨-, -, hend⟩ := lo32_spec (~~~(old ^^^ new))
    have hbit : d - 1 - divergence old new d = 31 - lo32 (~~~(old ^^^ new)) := by omega
    rw [hbit, ne_eq, ← getLsbD_agree (by omega), hend (by omega)]
    exact Bool.false_ne_true

/-- Settles O28: the advance turns bits `t` to 0, which are those of the last `t + 1` levels. -/
theorem sequentialAdvanceCost : Obligations.SequentialAdvanceCost := by
  intro p d h1 hd hlast
  have ht := trailingOnes_lt_depth p hd hlast
  have hdiv := divergence_add_one p hd ht
  refine ⟨ht, hdiv, by omega, ?_⟩
  have hfull := trailingOnes_eq_iff p (show d - 1 < 32 by omega)
  rw [Nat.sub_add_cancel h1] at hfull
  rw [← BitVec.toNat_inj, and_maskOf_toNat p d hd, maskOf_toNat (d - 1) (by omega), ← hfull]
  omega

end Sys2Proof.Machine
end

section
/-! SUPPORT. What each command's dispatch leaves (40_keystream.md R101, R103, R108 to R112; 42_control.md R172,
R173). -/

namespace Sys2Proof.Machine

open Sys2Proof.Expected

section
variable {s t : State}

/-- What `finish` leaves, field by field (42_control.md R173). -/
theorem State.finish_eq_finished (s : State) : s.finish = finished s := by
  unfold State.finish finished
  split
  · rfl
  · next ho => rw [Bool.eq_false_iff.2 ho]

/-- In READY and EXHAUSTED the body of a keystream command runs (60_exceptions.md R185). -/
theorem State.ifConfigured_of_hasInstance (hi : HasInstance s) (body : State → State) :
    s.ifConfigured body = body s := by
  obtain ⟨hst, -⟩ | ⟨hst, -⟩ | ⟨-, hb⟩ := s.ifConfigured_cases body
  · simp [HasInstance, hst] at hi
  · simp [HasInstance, hst] at hi
  · exact hb

/-! The dispatch of each command. -/

theorem exec_create_bad {p : Pending} (hp : s.pend = some p) {d : Nat} (hd : d = 0 ∨ 32 < d) :
    exec (.create d) s = .next (s.raise .configError) := by
  simp only [exec, execCreate, hp]
  exact if_pos hd

theorem exec_create {p : Pending} (hp : s.pend = some p) {d : Nat} (h1 : 1 ≤ d) (h32 : d ≤ 32) :
    exec (.create d) s = .next (s.construct d p.argPath p.seed).finish := by
  simp only [exec, execCreate, hp]
  exact if_neg (by omega)

theorem exec_goto {p : Pending} (hi : HasInstance s) (hp : s.pend = some p) :
    exec .goto s = .next (s.traverse p.argPath).finish := by
  simp only [exec, execGoto, hp]
  rw [State.ifConfigured_of_hasInstance hi]

theorem exec_compute (hi : HasInstance s) (f : Nat) : exec (.compute f) s = .next (s.compute f).finish :=
  congrArg Host.Outcome.next (State.ifConfigured_of_hasInstance hi _)

theorem exec_read (hi : HasInstance s) (hrem : s.rem = 0#24) (n : Nat) :
    exec (.read n) s = .next (s.startRead n) :=
  (if_pos hrem).trans (congrArg Host.Outcome.next (State.ifConfigured_of_hasInstance hi _))

theorem exec_readExact (hi : HasInstance s) (hrem : s.rem = 0#24) (n : Nat) :
    exec (.readExact n) s = .next (s.startPull n) :=
  (if_pos hrem).trans (congrArg Host.Outcome.next (State.ifConfigured_of_hasInstance hi _))

theorem exec_xor (hi : HasInstance s) (hrem : s.rem = 0#24) (n : Nat) :
    exec (.xor n) s = .next (s.startPull n) :=
  (if_pos hrem).trans (congrArg Host.Outcome.next (State.ifConfigured_of_hasInstance hi _))

/-! The chain. -/

/-- What CREATE's body writes (40_keystream.md R108). -/
theorem State.construct_eq (s : State) (d : Nat) (p : Word) (x : B32) :
    s.construct d p x = { s with
      seed := x, depth := Fin.ofNat 33 d, path := p, nodes := (s.construct d p x).nodes, offset := 0
      st := .ready, err := .none, result := 0#32, ksOut := [], din := [], dout := []
      hashes := (s.construct d p x).hashes } := rfl

/-- Seed, path and depth determine the node slots of a sound state (10_state.md R25). -/
theorem State.Sound.nodes_eq (hs : s.Sound) (ht : t.Sound) (hseed : s.seed = t.seed) (hpath : s.path = t.path)
    (hdepth : s.depth = t.depth) : s.nodes = t.nodes := by
  refine Vector.ext fun i hi => Option.some.inj ?_
  rw [← Vector.getElem?_eq_getElem hi, ← Vector.getElem?_eq_getElem hi]
  by_cases hlt : i < s.depth.val
  · rw [hs.chain i hlt, ht.chain i (hdepth ▸ hlt), hseed, hpath, hdepth]
  · rw [hs.unused i (by omega) hi, ht.unused i (by omega) hi]

/-- Each slot that the loop writes is `H` of the value that ends up just below it (40_keystream.md R101). -/
theorem computeLevels_written (H : B32 → B32) (x : B32) (p : Word) (d k i j : Nat) (ns : Nodes) (hk : i + k ≤ 32)
    (hij : i ≤ j) (hjk : j < i + k) :
    (computeLevels H x p d k i ns)[j]? =
      some (H (childInput (decisionBit p d j) (prevValue x (computeLevels H x p d k i ns) j))) := by
  induction k generalizing i ns with
  | zero => omega
  | succ k ih =>
    rw [computeLevels]
    by_cases hj : j = i
    · subst hj
      have hbelow : prevValue x ns j = prevValue x (computeLevels H x p d k (j + 1)
          (ns.setIfInBounds j (H (childInput (decisionBit p d j) (prevValue x ns j))))) j := by
        unfold prevValue
        split
        · rfl
        · rw [computeLevels_outside _ _ _ _ _ _ _ _ (by omega), Vector.getElem?_setIfInBounds_ne (by omega)]
      rw [← hbelow, computeLevels_outside _ _ _ _ _ _ _ _ (by omega),
        Vector.getElem?_setIfInBounds_self_of_lt (by omega)]
    · exact ih (i + 1) _ (by omega) (by omega) (by omega)

/-- The value below a level, from the slot that holds it (40_keystream.md R101). -/
theorem prevValue_eq {x prev : B32} {ns : Nodes} {i : Nat} (h0 : i = 0 → prev = x)
    (hpos : i ≠ 0 → ns[i - 1]? = some prev) : prevValue x ns i = prev := by
  unfold prevValue
  split
  · next hi => exact (h0 hi).symm
  · next hi => rw [hpos hi]; rfl

end

/-- Settles O22: a depth outside 1..32 is refused before the body. -/
theorem createOfBadDepthRaisesConfigError : Obligations.CreateOfBadDepthRaisesConfigError :=
  fun s _ _ hp hd => exec_create_bad (s := s) hp (by omega)

/-- Settles O21: what `construct` builds has a right chain below depth and zero above. -/
theorem createBuildsTheInstance : Obligations.CreateBuildsTheInstance := by
  intro s p d hp h1 h32
  have hv : (Fin.ofNat 33 d).val = d := Nat.mod_eq_of_lt (by omega)
  refine ⟨(s.construct d p.argPath p.seed).nodes, ?_, fun i hi => ?_, s.construct_unused d _ _ h32⟩
  · rw [exec_create hp h1 h32, State.finish_eq_finished]
    have hcost : (s.construct d p.argPath p.seed).hashes = s.hashes + d := by
      rw [State.construct_hashes, hv, Nat.sub_zero]
    rw [← hcost]
    exact congrArg (fun t => Host.Outcome.next (finished t)) (s.construct_eq d p.argPath p.seed)
  · have hright := s.construct_chain d p.argPath p.seed h32 i hi
    rwa [State.levelRight, s.construct_depth_val _ _ h32] at hright

/-- Settles O23: the loop's levels one by one; below `f` and above depth it writes nothing. -/
theorem computeLoopWritesItsLevels : Obligations.ComputeLoopWritesItsLevels := by
  intro s f
  have hd := s.depth.isLt
  refine ⟨(s.compute f).nodes, rfl, fun i hi => ?_, fun i prev hf hi h0 hpos => ?_, fun hright i hi => ?_⟩
  · exact computeLevels_outside _ _ _ _ _ _ _ _ (by omega)
  · have hwritten : (s.compute f).nodes[i]? = some (Config.hash (childInput (decisionBit s.path s.depth.val i)
        (prevValue s.seed (s.compute f).nodes i))) :=
      computeLevels_written _ _ _ _ _ _ _ _ (by omega) hf (by omega)
    rw [hwritten, prevValue_eq h0 hpos]
    rfl
  · rw [State.compute_nodes]
    by_cases hf : f ≤ s.depth.val
    · exact computeLevels_chain _ _ _ _ _ _ _ (by omega) (fun j hj => hright j hj (by omega)) i (by omega)
    · rw [computeLevels_outside _ _ _ _ _ _ _ _ (by omega)]
      exact hright i (by omega) hi

/-- Settles O24: recomputing a right chain writes the values that stand there. -/
theorem computeChangesNoValue : Obligations.ComputeChangesNoValue := by
  intro s f h hi
  have hshape : s.compute f = { s with nodes := (s.compute f).nodes, hashes := s.hashes + (s.depth.val - f) } := rfl
  rw [exec_compute hi, State.finish_eq_finished, hshape, s.compute_nodes_same f h.chain]

/-- Settles O25: a traversal recomputes from the divergence level on. -/
theorem gotoMovesWithPrefixReuse : Obligations.GotoMovesWithPrefixReuse := by
  intro s p h hi hp
  refine ⟨(s.traverse p.argPath).nodes, ?_, fun i hlt => ?_, s.traverse_chain p.argPath h.chain,
    s.traverse_unused p.argPath⟩
  · rw [exec_goto hi hp, State.finish_eq_finished]
    rfl
  · exact computeLevels_outside _ _ _ _ _ _ _ _ (.inl hlt)

/-- Settles O26: both chains are sound for the same seed, path and depth. -/
theorem gotoChainEqualsFreshInstance : Obligations.GotoChainEqualsFreshInstance := by
  intro s t s' t' p p' h hi hp hp' hpath hseed hgoto hcreate
  have hd := h.sound.depth_pos hi
  have h32 : s.depth.val ≤ 32 := by omega
  rw [exec_goto hi hp] at hgoto
  rw [exec_create hp' hd h32] at hcreate
  cases hgoto
  cases hcreate
  rw [State.finish_nodes, State.finish_nodes]
  exact (h.sound.traverse hd p.argPath).nodes_eq (s'.sound_construct p'.argPath p'.seed hd h32) hseed.symm hpath.symm
    (Fin.ext (s'.construct_depth_val _ _ h32).symm)

/-- Settles O30: each dispatch takes the branch of length 0. -/
theorem zeroLengthDataCommandsReturnZero : Obligations.ZeroLengthDataCommandsReturnZero := by
  intro s i _ hi hrem hlen
  rw [← State.finish_eq_finished]
  obtain rfl | rfl | rfl := hlen
  · exact exec_read hi hrem 0
  · exact exec_readExact hi hrem 0
  · exact exec_xor hi hrem 0

/-- Settles O31: a READY leaf has at least one byte left. -/
theorem readStartsWithinTheLeaf : Obligations.ReadStartsWithinTheLeaf := by
  intro s n h hst hrem hn
  obtain ⟨-, hoff⟩ := h.ready hst
  refine ⟨?_, by omega, by omega⟩
  rw [exec_read (.inl hst) hrem]
  obtain ⟨hz, -⟩ | ⟨-, he, -⟩ | ⟨-, -, hstart⟩ := s.startRead_cases n
  · omega
  · simp [hst] at he
  · rw [hstart]
    rfl

/-- Settles O32: both commands start their pull in the same way. -/
theorem exactPullStarts : Obligations.ExactPullStarts := by
  intro s n i _ hst hrem hn hword havail hi
  refine ⟨?_, (BitVec.toNat_ofNat n 24).trans (Nat.mod_eq_of_lt hword)⟩
  have hstart : exec i s = .next (s.startPull n) := by
    obtain rfl | rfl := hi
    · exact exec_readExact (.inl hst) hrem n
    · exact exec_xor (.inl hst) hrem n
  rw [hstart]
  obtain ⟨hz, -⟩ | ⟨-, hover, -⟩ | ⟨-, -, hbytes⟩ := s.startPull_cases n
  · omega
  · omega
  · rw [hbytes]
    rfl

/-- What can be delivered outside EXHAUSTED (40_keystream.md R104). -/
theorem State.avail_of_ne_exhausted {s : State} (h : s.st ≠ .exhausted) :
    s.avail = (s.mask.toNat - (s.path &&& s.mask).toNat) * 32 + (32 - s.offset.val) := if_neg h

/-- Settles O34: READY has a byte left in its leaf, and at most `2^32 - 1` leaves after it. -/
theorem availIsBounded : Obligations.AvailIsBounded := by
  refine fun s => ⟨fun he => if_pos he, State.avail_of_ne_exhausted, fun h hst => ?_⟩
  obtain ⟨-, hoff⟩ := h.ready hst
  have hmask := s.mask.isLt
  rw [State.avail_of_ne_exhausted (by simp [hst])]
  omega

end Sys2Proof.Machine
end

section
/-! SUPPORT. The byte steps of READ, READ_EXACT and XOR (40_keystream.md R105, R106, R115; 41_cipher.md R150): what the
step shared by the three commands leaves, and when it is taken. -/

namespace Sys2Proof.Machine

open Sys2Proof.Expected

/-- The byte step that leaves the bytes `ks`, `di`, `dou` in the channels: the cursor advances, the byte is counted, and
with the last one the command returns `r` (40_keystream.md R106, 41_cipher.md R150). -/
def State.byteStep (s : State) (ks di dou : List Byte) (r : Word) : State :=
  (s.withChannels ks di dou).adv1.countByte.endIfDone r

section
variable {s t : State}

theorem State.byteStep_eq (s : State) (ks di dou : List Byte) (r : Word) :
    s.byteStep ks di dou r = (s.adv1.withChannels ks di dou).countByte.endIfDone r :=
  congrArg (fun t => t.countByte.endIfDone r) (s.adv1_withChannels ks di dou)

/-- A byte step goes on, or it moves the last byte and finishes (40_keystream.md R106). -/
theorem State.byteStep_cases (s : State) (ks di dou : List Byte) (r : Word) :
    (s.rem ≠ 1#24 ∧ s.byteStep ks di dou r = (s.adv1.withChannels ks di dou).countByte) ∨
    (s.rem = 1#24 ∧
      s.byteStep ks di dou r = finished { (s.adv1.withChannels ks di dou).countByte with result := r }) := by
  have hrem : (s.adv1.withChannels ks di dou).countByte.rem = s.rem - 1#24 :=
    congrArg (· - 1#24) s.adv1_rem
  have hlast : s.rem - 1#24 = 0#24 ↔ s.rem = 1#24 := by bv_omega
  rw [s.byteStep_eq]
  obtain ⟨hne, hend⟩ | ⟨hz, hend⟩ := (s.adv1.withChannels ks di dou).countByte.endIfDone_cases r
  · exact .inl ⟨fun h => hne (hrem.trans (hlast.2 h)), hend⟩
  · exact .inr ⟨hlast.1 (hrem.symm.trans hz), hend.trans (State.finish_eq_finished _)⟩

section
variable (s : State) (ks di dou : List Byte) (r : Word)

@[simp] theorem State.byteStep_seed : (s.byteStep ks di dou r).seed = s.seed := by
  rw [s.byteStep_eq, State.endIfDone_seed]; exact s.adv1_seed
@[simp] theorem State.byteStep_depth : (s.byteStep ks di dou r).depth = s.depth := by
  rw [s.byteStep_eq, State.endIfDone_depth]; exact s.adv1_depth
@[simp] theorem State.byteStep_path : (s.byteStep ks di dou r).path = s.adv1.path := by
  rw [s.byteStep_eq, State.endIfDone_path]; rfl
@[simp] theorem State.byteStep_offset : (s.byteStep ks di dou r).offset = s.adv1.offset := by
  rw [s.byteStep_eq, State.endIfDone_offset]; rfl
@[simp] theorem State.byteStep_nodes : (s.byteStep ks di dou r).nodes = s.adv1.nodes := by
  rw [s.byteStep_eq, State.endIfDone_nodes]; rfl
@[simp] theorem State.byteStep_hashes : (s.byteStep ks di dou r).hashes = s.adv1.hashes := by
  rw [s.byteStep_eq, State.endIfDone_hashes]; rfl
@[simp] theorem State.byteStep_ksOut : (s.byteStep ks di dou r).ksOut = ks := by
  rw [s.byteStep_eq, State.endIfDone_ksOut]; rfl
@[simp] theorem State.byteStep_din : (s.byteStep ks di dou r).din = di := by
  rw [s.byteStep_eq, State.endIfDone_din]; rfl
@[simp] theorem State.byteStep_dout : (s.byteStep ks di dou r).dout = dou := by
  rw [s.byteStep_eq, State.endIfDone_dout]; rfl

/-- A byte step writes nothing of the host's side. -/
theorem State.byteStep_hostSideSame : HostSideSame s (s.byteStep ks di dou r) := by
  rw [s.byteStep_eq]
  refine ⟨?_, ?_, ?_, ?_, ?_, ?_⟩
  · rw [State.endIfDone_argPath]; exact s.adv1_argPath
  · rw [State.endIfDone_seedIn]; exact s.adv1_seedIn
  · rw [State.endIfDone_script]; exact s.adv1_script
  · rw [State.endIfDone_log]; exact s.adv1_log
  · rw [State.endIfDone_turns]; exact s.adv1_turns
  · rw [State.endIfDone_draws]; exact s.adv1_draws

end

/-- STATE after the advance of a READY cursor (40_keystream.md R105). -/
theorem State.adv1_st (hst : s.st = .ready) (hoff : s.offset.val ≤ 31) : s.adv1.st = stAfterByte s := by
  unfold stAfterByte
  obtain ⟨ho, ha⟩ | ⟨-, hmore, ha⟩ | ⟨ho, hlast, ha⟩ := s.adv1_cases <;> rw [ha]
  · rw [if_neg fun h => by omega]
    exact hst
  · rw [if_neg fun h => hmore h.2]
    rfl
  · rw [if_pos ⟨by omega, hlast⟩]

/-- The advance moves the cursor by one byte and keeps the chain right (40_keystream.md R105). -/
theorem State.adv1_cursorMoved (hc : ∀ i, i < s.depth.val → s.levelRight i) : CursorMoved s s.adv1 := by
  refine ⟨s.adv1_seed, s.adv1_depth, ?_⟩
  obtain ⟨ho, ha⟩ | ⟨ho, hmore, ha⟩ | ⟨ho, hlast, ha⟩ := s.adv1_cases <;> rw [ha]
  · have hnext : (Fin.ofNat 33 (s.offset.val + 1)).val = s.offset.val + 1 := Nat.mod_eq_of_lt (by omega)
    exact ⟨fun _ => ⟨hnext, rfl, rfl⟩, fun h => by omega, fun h => by omega⟩
  · exact ⟨fun h => by omega, fun _ _ => ⟨rfl, rfl, s.traverse_chain _ hc, s.traverse_unused _⟩,
      fun _ h => absurd h hmore⟩
  · exact ⟨fun h => by omega, fun _ h => absurd hlast h, fun _ _ => ⟨rfl, rfl, rfl⟩⟩

/-- The advance applies `H` only on the way to the next leaf (40_keystream.md R115, 70_reset_and_hazards.md R230). -/
theorem State.adv1_hashes (hoff : s.offset.val ≤ 31) :
    s.adv1.hashes = s.hashes +
      (if s.offset.val = 31 ∧ s.path &&& s.mask ≠ s.mask then trailingOnes s.path + 1 else 0) := by
  obtain ⟨ho, ha⟩ | ⟨ho, hmore, ha⟩ | ⟨-, hlast, ha⟩ := s.adv1_cases <;> rw [ha]
  · rw [if_neg fun h => by omega]
    rfl
  · have hd : s.depth.val ≤ 32 := by omega
    have ht := trailingOnes_lt_depth s.path hd hmore
    rw [if_pos ⟨by omega, hmore⟩, State.traverse_hashes, divergence_add_one s.path hd ht]
    omega
  · rw [if_neg fun h => h.2 hlast]
    rfl

/-- A byte step of a READY engine moves the cursor by one byte (40_keystream.md R105, R106). -/
theorem Inv.byteStep_cursorMoved (h : Inv s) (ks di dou : List Byte) (r : Word) :
    CursorMoved s (s.byteStep ks di dou r) := by
  obtain ⟨-, -, hmoved⟩ := State.adv1_cursorMoved h.chain
  refine ⟨s.byteStep_seed _ _ _ _, s.byteStep_depth _ _ _ _, ?_⟩
  rwa [State.byteStep_path, State.byteStep_offset, State.byteStep_nodes]

/-- A byte step of a READY engine counts its byte (40_keystream.md R106, 42_control.md R173). -/
theorem State.byteStep_byteCounted (hst : s.st = .ready) (hoff : s.offset.val ≤ 31) (ks di dou : List Byte)
    (r : Word) : ByteCounted s (s.byteStep ks di dou r) r := by
  have hafter := State.adv1_st hst hoff
  obtain ⟨hne, hstep⟩ | ⟨hlast, hstep⟩ := s.byteStep_cases ks di dou r <;> rw [hstep]
  · refine ⟨fun _ => ⟨?_, ?_, s.adv1_busy, s.adv1_pend, s.adv1_ovr, s.adv1_result, hafter, s.adv1_err⟩,
      fun h => absurd h hne⟩
    · exact congrArg (· - 1#24) s.adv1_rem
    · exact congrArg (· + 1#24) s.adv1_cnt
  · refine ⟨fun h => absurd hlast h, fun _ => ⟨rfl, rfl, rfl, rfl, rfl, rfl, ?_, ?_⟩⟩
    · rw [← hafter, ← s.adv1_ovr]
      rfl
    · rw [← s.adv1_err, ← s.adv1_ovr]
      rfl

/-- While bytes are left to move there is a byte under the cursor (40_keystream.md R105, R106). -/
theorem Inv.leafByte_eq_cursorByte (h : Inv s) (hrem : s.rem ≠ 0#24) :
    ∃ k, s.leafByte = some k ∧ cursorByte s = some k := by
  obtain ⟨hd, hoff⟩ := h.ready (h.running hrem).st
  exact ⟨_, s.leafByte_eq hd (by omega) (h.chain _ (by omega)), Vector.getElem?_eq_getElem (by omega)⟩

/-! When a command takes a byte step. -/

theorem exec_keystream_running {i : Instr} {n : Nat} (hrem : s.rem ≠ 0#24) (hi : i = .read n ∨ i = .readExact n) :
    exec i s = s.ksStep := by
  obtain rfl | rfl := hi <;> exact if_neg hrem

theorem exec_xor_running (n : Nat) (hrem : s.rem ≠ 0#24) : exec (.xor n) s = s.xorStep n := if_neg hrem

/-- While KS_OUT is full the engine holds (40_keystream.md R106). -/
theorem State.ksStep_full (hfull : s.ksOut.length = Config.fifoDepth) : s.ksStep = .next s :=
  if_neg (by omega)

/-- With room in KS_OUT the byte under the cursor is delivered (40_keystream.md R106). -/
theorem State.ksStep_room {k : Byte} (hk : s.leafByte = some k) (hroom : s.ksOut.length < Config.fifoDepth) :
    s.ksStep = .next (s.byteStep (s.ksOut ++ [k]) s.din s.dout ((s.cnt + 1#24).setWidth 32)) := by
  rw [s.ksStep_eq k hk, if_pos hroom]
  rfl

/-- With a byte in DIN and room in DOUT the two bytes are combined (41_cipher.md R150). -/
theorem State.xorStep_room {k x : Byte} {rest : List Byte} (n : Nat) (hk : s.leafByte = some k)
    (hdin : s.din = x :: rest) (hroom : s.dout.length < Config.fifoDepth) :
    s.xorStep n = .next (s.byteStep s.ksOut rest (s.dout ++ [x ^^^ k]) (BitVec.ofNat 32 n)) := by
  rw [s.xorStep_eq n k x rest hk hdin, if_pos hroom, State.adv1_combined]
  rfl

end

/-- Settles O35: the shared byte step, with the byte under the cursor at the end of KS_OUT. -/
theorem keystreamByteStepDeliversAndAdvances : Obligations.KeystreamByteStepDeliversAndAdvances := by
  intro s n i h hrem hi
  rw [exec_keystream_running hrem hi]
  have hst := (h.running hrem).st
  obtain ⟨-, hoff⟩ := h.ready hst
  obtain ⟨k, hleaf, hcursor⟩ := h.leafByte_eq_cursorByte hrem
  refine ⟨fun hroom => ⟨_, k, State.ksStep_room hleaf hroom, hcursor, ?_⟩, State.ksStep_full⟩
  exact ⟨s.byteStep_ksOut _ _ _ _, s.byteStep_din _ _ _ _, s.byteStep_dout _ _ _ _, h.byteStep_cursorMoved _ _ _ _,
    State.byteStep_byteCounted hst hoff _ _ _ _, s.byteStep_hostSideSame _ _ _ _⟩

/-- Settles O37: every enabled byte step is the shared one, which applies `H` only in its advance. -/
theorem byteStepHashCost : Obligations.ByteStepHashCost := by
  intro s n i h hrem henabled
  obtain ⟨-, hoff⟩ := h.ready (h.running hrem).st
  obtain ⟨k, hleaf, -⟩ := h.leafByte_eq_cursorByte hrem
  have hcost (ks di dou : List Byte) (r : Word) := (s.byteStep_hashes ks di dou r).trans (State.adv1_hashes hoff)
  obtain ⟨hi, hroom⟩ | ⟨rfl, hdin, hroom⟩ := henabled
  · rw [exec_keystream_running hrem hi, State.ksStep_room hleaf hroom]
    exact ⟨_, rfl, hcost _ _ _ _⟩
  · obtain ⟨x, rest, hx⟩ := List.exists_cons_of_ne_nil hdin
    rw [exec_xor_running n hrem, State.xorStep_room n hleaf hx hroom]
    exact ⟨_, rfl, hcost _ _ _ _⟩

end Sys2Proof.Machine
end

section
/-! SUPPORT. The position in the keystream (40_keystream.md R104 to R107): what it means that a state is another moved
on by `n` bytes, how such moves compose, and which bytes lie between. -/

namespace Sys2Proof.Machine

open Sys2Proof.Expected

/-- The cursor of `t` is that of `s` moved on by `n` bytes, with so much less left to deliver (40_keystream.md R104,
R105, R107). -/
structure Advanced (s t : State) (n : Nat) : Prop where
  seed : t.seed = s.seed
  depth : t.depth = s.depth
  left : t.avail + n = s.avail
  moved : MovedBy s t n

section
variable {s t u : State} {n m : Nat}

/-- Where READY or EXHAUSTED, nothing is left exactly in EXHAUSTED (40_keystream.md R104). -/
theorem Inv.avail_eq_zero_iff (h : Inv s) (hi : HasInstance s) : s.avail = 0 ↔ s.st = .exhausted := by
  obtain ⟨hnone, -, hsome⟩ := availIsBounded s
  obtain hst | hst := hi
  · obtain ⟨hpos, -⟩ := hsome h hst
    simp [hst, Nat.ne_of_gt hpos]
  · simp [hst, hnone hst]

/-- The move depends on the cursor, the seed and the depth only. -/
theorem Advanced.congr (h : Advanced s t n) (hseed : u.seed = t.seed) (hdepth : u.depth = t.depth) (hst : u.st = t.st)
    (hpath : u.path = t.path) (hoff : u.offset = t.offset) : Advanced s u n where
  seed := hseed.trans h.seed
  depth := hdepth.trans h.depth
  left := (congrArg (· + n) (State.avail_congr t u hst hdepth hpath hoff)).trans h.left
  moved := by
    unfold MovedBy
    rw [hst, hpath, hoff]
    exact h.moved

/-- Every state is itself moved on by no byte. -/
theorem Inv.advanced_zero (h : Inv s) (hi : HasInstance s) : Advanced s s 0 := by
  have hnone := h.avail_eq_zero_iff hi
  refine ⟨rfl, rfl, rfl, fun hpos => ?_, fun hz => ?_⟩
  · have hst : s.st = .ready := hi.resolve_right fun he => by simp [hnone.2 he] at hpos
    obtain ⟨-, hoff⟩ := h.ready hst
    have hleaf : (s.offset.val + 0) / 32 = 0 := by omega
    refine ⟨hst, ?_, by omega⟩
    rw [hleaf, BitVec.add_zero]
  · have hst := hnone.1 hz.symm
    obtain ⟨-, hoff, -⟩ := h.exhausted hst
    refine ⟨hst, ?_, hoff⟩
    rw [hoff, BitVec.add_zero]

/-- What has been moved on is READY or EXHAUSTED (40_keystream.md R105). -/
theorem Advanced.hasInstance (h : Advanced s t n) : HasInstance t := by
  obtain ⟨hready, hexhausted⟩ := h.moved
  have hleft := h.left
  obtain hlt | heq : n < s.avail ∨ n = s.avail := by omega
  · exact .inl (hready hlt).1
  · exact .inr (hexhausted heq).1

/-- Leaf numbers add up. -/
theorem path_add_leaves (p : Word) {a b c : Nat} (h : a + b = c) :
    p + BitVec.ofNat 32 a + BitVec.ofNat 32 b = p + BitVec.ofNat 32 c := by
  rw [BitVec.add_assoc, ← BitVec.ofNat_add, h]

/-- Moves compose (40_keystream.md R107). -/
theorem Advanced.trans (h : Advanced s t n) (h' : Advanced t u m) : Advanced s u (n + m) := by
  obtain ⟨hseed, hdepth, hleft, hready, hexhausted⟩ := h
  obtain ⟨hseed', hdepth', hleft', hready', hexhausted'⟩ := h'
  refine ⟨hseed'.trans hseed, hdepth'.trans hdepth, by omega, fun hlt => ?_, fun heq => ?_⟩
  · obtain ⟨-, hpath, hoff⟩ := hready (by omega)
    obtain ⟨hst', hpath', hoff'⟩ := hready' (by omega)
    refine ⟨hst', ?_, by omega⟩
    rw [hpath', hpath]
    exact path_add_leaves _ (by omega)
  · obtain ⟨hst', hpath', hoff'⟩ := hexhausted' (by omega)
    refine ⟨hst', ?_, hoff'⟩
    obtain hlt | hend : n < s.avail ∨ n = s.avail := by omega
    · obtain ⟨-, hpath, hoff⟩ := hready hlt
      rw [hpath', hpath]
      exact path_add_leaves _ (by omega)
    · obtain ⟨-, hpath, hoff⟩ := hexhausted hend
      rw [hpath', hpath]
      exact path_add_leaves _ (by omega)

/-- Where the cursor stands decides where it moves (40_keystream.md R105). -/
theorem cursor_eq_of_cursorMoved (h : CursorMoved s t) (h' : CursorMoved s u) (hoff : s.offset.val ≤ 31) :
    t.path = u.path ∧ t.offset = u.offset := by
  obtain ⟨-, -, hin, hnext, hend⟩ := h
  obtain ⟨-, -, hin', hnext', hend'⟩ := h'
  obtain ho | ho : s.offset.val < 31 ∨ s.offset.val = 31 := by omega
  · obtain ⟨ho1, hp1, -⟩ := hin ho
    obtain ⟨ho2, hp2, -⟩ := hin' ho
    exact ⟨hp1.trans hp2.symm, Fin.ext (ho1.trans ho2.symm)⟩
  · by_cases hlast : s.path &&& s.mask = s.mask
    · obtain ⟨ho1, hp1, -⟩ := hend ho hlast
      obtain ⟨ho2, hp2, -⟩ := hend' ho hlast
      exact ⟨hp1.trans hp2.symm, Fin.ext (ho1.trans ho2.symm)⟩
    · obtain ⟨ho1, hp1, -⟩ := hnext ho hlast
      obtain ⟨ho2, hp2, -⟩ := hnext' ho hlast
      exact ⟨hp1.trans hp2.symm, Fin.ext (ho1.trans ho2.symm)⟩

/-- The advance of a READY cursor is a move by one byte (40_keystream.md R105). -/
theorem Inv.advanced_adv1 (h : Inv s) (hst : s.st = .ready) : Advanced s s.adv1 1 := by
  obtain ⟨-, hoff⟩ := h.ready hst
  have hleft := s.adv1_avail hst (by omega)
  refine ⟨s.adv1_seed, s.adv1_depth, hleft, ?_⟩
  obtain ⟨ho, ha⟩ | ⟨ho, -, ha⟩ | ⟨ho, -, ha⟩ := s.adv1_cases <;> rw [ha] at hleft ⊢
  · have hnext : (Fin.ofNat 33 (s.offset.val + 1)).val = s.offset.val + 1 := Nat.mod_eq_of_lt (by omega)
    generalize Fin.ofNat 33 (s.offset.val + 1) = o at hnext hleft ⊢
    have hrest : 32 - o.val ≤ _ := State.leafRest_le_avail (s := { s with offset := o }) hst
    have hleaf : (s.offset.val + 1) / 32 = 0 := by omega
    refine ⟨fun _ => ⟨hst, ?_, ?_⟩, fun heq => by omega⟩
    · rw [hleaf, BitVec.add_zero]
    · rw [hnext]
      omega
  · have hrest : 32 - 0 ≤ _ := State.leafRest_le_avail (s := s.traverse (s.path + 1#32)) rfl
    have hleaf : (s.offset.val + 1) / 32 = 1 := by omega
    refine ⟨fun _ => ⟨rfl, ?_, ?_⟩, fun heq => by omega⟩
    · rw [hleaf, State.traverse_path]
    · rw [State.traverse_offset, Fin.val_zero]
      omega
  · have hnone : State.avail { s with offset := 32, st := .exhausted } = 0 := if_pos rfl
    have hleaf : (s.offset.val + 1 - 1) / 32 = 0 := by omega
    refine ⟨fun hlt => by omega, fun _ => ⟨rfl, ?_, rfl⟩⟩
    rw [hleaf, BitVec.add_zero]

/-- One delivered byte is a move by one (40_keystream.md R105). -/
theorem Inv.advanced_one (h : Inv s) (hst : s.st = .ready) (hm : CursorMoved s t) (ht : t.st = stAfterByte s) :
    Advanced s t 1 := by
  obtain ⟨-, hoff⟩ := h.ready hst
  obtain ⟨hpath, hoffset⟩ := cursor_eq_of_cursorMoved hm (State.adv1_cursorMoved h.chain) hoff
  obtain ⟨hseed, hdepth, -⟩ := hm
  exact (h.advanced_adv1 hst).congr (hseed.trans s.adv1_seed.symm) (hdepth.trans s.adv1_depth.symm)
    (ht.trans (State.adv1_st hst hoff).symm) hpath hoffset

/-- The bytes from a byte of a later leaf on are those of the stream that starts there (40_keystream.md R107). -/
theorem keystreamByte_add (H : B32 → B32) (x : B32) (p : Word) (d a j : Nat) :
    keystreamByte H x (p + BitVec.ofNat 32 (a / 32)) d (a % 32 + j) = keystreamByte H x p d (a + j) := by
  have hleaf : a / 32 + (a % 32 + j) / 32 = (a + j) / 32 := by omega
  have hbyte : (a % 32 + j) % 32 = (a + j) % 32 := by omega
  unfold keystreamByte
  rw [path_add_leaves p hleaf]
  simp only [hbyte]

/-- The next bytes are the first `n` of them and those after the move by `n` (40_keystream.md R107). -/
theorem Advanced.keystreamFrom_add (h : Advanced s t n) (hm : m ≤ t.avail) :
    keystreamFrom s (n + m) = keystreamFrom s n ++ keystreamFrom t m := by
  obtain ⟨hseed, hdepth, hleft, hready, -⟩ := h
  unfold keystreamFrom
  rw [List.range_add, List.map_append, List.map_map]
  refine congrArg _ (List.map_congr_left fun j hj => ?_)
  have hjm : j < m := List.mem_range.1 hj
  obtain ⟨-, hpath, hoff⟩ := hready (by omega)
  rw [Function.comp_apply, hseed, hdepth, hpath, hoff, keystreamByte_add, Nat.add_assoc]

/-- The byte under the cursor is the next one of the keystream (40_keystream.md R107). -/
theorem keystreamFrom_one {k : Byte} (hk : cursorByte s = some k) : keystreamFrom s 1 = [k] := by
  have hoff : s.offset.val < 32 := by
    by_contra hge
    rw [cursorByte, Vector.getElem?_eq_none (by omega)] at hk
    cases hk
  have hleaf : s.offset.val / 32 = 0 := by omega
  have hbyte : s.offset.val % 32 = s.offset.val := by omega
  rw [cursorByte, Vector.getElem?_eq_getElem hoff] at hk
  cases hk
  simp [keystreamFrom, keystreamByte, List.range_one, hleaf, hbyte]

/-- The same move from the same state leads to the same position (40_keystream.md R114). -/
theorem Advanced.samePosition (h : Advanced s t n) (h' : Advanced s u n) (ht : Inv t) (hu : Inv u) :
    SamePosition t u := by
  have hseed : u.seed = t.seed := h'.seed.trans h.seed.symm
  have hdepth : u.depth = t.depth := h'.depth.trans h.depth.symm
  obtain ⟨hready, hexhausted⟩ := h.moved
  obtain ⟨hready', hexhausted'⟩ := h'.moved
  have hleft := h.left
  have hcursor : u.path = t.path ∧ u.offset = t.offset ∧ u.st = t.st := by
    obtain hlt | heq : n < s.avail ∨ n = s.avail := by omega
    · obtain ⟨hst, hpath, hoff⟩ := hready hlt
      obtain ⟨hst', hpath', hoff'⟩ := hready' hlt
      exact ⟨hpath'.trans hpath.symm, Fin.ext (hoff'.trans hoff.symm), hst'.trans hst.symm⟩
    · obtain ⟨hst, hpath, hoff⟩ := hexhausted heq
      obtain ⟨hst', hpath', hoff'⟩ := hexhausted' heq
      exact ⟨hpath'.trans hpath.symm, Fin.ext (hoff'.trans hoff.symm), hst'.trans hst.symm⟩
  obtain ⟨hpath, hoff, hst⟩ := hcursor
  exact ⟨hpath, hoff, hst, hu.sound.nodes_eq ht.sound hseed hpath hdepth, hseed, hdepth⟩

/-- A pull after a move by `n` bytes is one from where the move ends (40_keystream.md R111, R112). -/
theorem Advanced.isPull (h : Advanced s t n) {j : Nat} {i : Instr} (hp : IsPull s (n + j) i m) : IsPull t j i m := by
  obtain ⟨hwf, hle, hlen⟩ := hp
  obtain ⟨hready, -⟩ := h.moved
  have hleft := h.left
  refine ⟨hwf, by omega, hlen.imp_right fun ⟨l, hi, hm⟩ => ⟨l, hi, ?_⟩⟩
  obtain hz | hpos := Nat.eq_zero_or_pos m
  · omega
  · obtain ⟨-, -, hoff⟩ := hready (by omega)
    omega

theorem Advanced.arePulls (h : Advanced s t n) (cs : List (Instr × Nat)) (j : Nat) (hcs : ArePulls s (n + j) cs) :
    ArePulls t j cs := by
  induction cs generalizing j with
  | nil => trivial
  | cons c cs ih =>
    obtain ⟨hp, hrest⟩ := hcs
    exact ⟨h.isPull hp, ih _ (by rwa [← Nat.add_assoc])⟩

end

end Sys2Proof.Machine
end

section
/-! SUPPORT. Whole pulls (30_encoding.md R87; 40_keystream.md R107, R111, R112, R114): runs in which the host gives a
command, takes each byte as it comes, and waits. -/

namespace Sys2Proof.Machine

open Sys2Proof.Expected

/-- After `k` steps from `s` the host's program is `ops`, the moves to come are `ts`, and `P` holds. -/
def Reaches (s : State) (k : Nat) (ops : List HostOp) (ts : List Turn) (P : State → Prop) : Prop :=
  ∃ t, runSteps k s = .next t ∧ t.script = ops ∧ t.turns = ts ∧ P t

/-- No overrun is recorded and no byte stands in a channel. -/
structure State.Drained (s : State) : Prop where
  noOverrun : s.ovr = false
  ksEmpty : s.ksOut = []
  dinEmpty : s.din = []
  doutEmpty : s.dout = []

/-- The engine serves a pull of `total` bytes of which `m` are left to move, and the host has taken every byte so far;
with none left the command has finished (40_keystream.md R106). -/
structure Pulling (s : State) (total m : Nat) : Prop where
  inv : Inv s
  hasInstance : HasInstance s
  drained : s.Drained
  left : s.rem.toNat = m
  running : m ≠ 0 → s.cnt.toNat + m = total ∧ ∃ p i n, s.Latched p i ∧ (i = .read n ∨ i = .readExact n)
  done : m = 0 → s.busy = false ∧ s.result = BitVec.ofNat 32 total

/-- From `s` to `t` the host has popped the next `n` keystream bytes, and no error was raised. -/
structure Delivered (s t : State) (n : Nat) : Prop where
  advanced : Advanced s t n
  popped : keysPopped t.log = keysPopped s.log ++ keystreamFrom s n
  err : t.err = s.err

section
variable {s t u : State} {n m j k : Nat} {i : Instr} {ops rest : List HostOp} {ts ts' : List Turn}
  {P Q : State → Prop}

/-! Runs. -/

theorem Reaches.refl (hs : s.script = ops) (ht : s.turns = ts) (h : P s) : Reaches s 0 ops ts P :=
  ⟨s, rfl, hs, ht, h⟩

theorem Reaches.step (h : step s = .next t) (hr : Reaches t k ops ts P) : Reaches s (k + 1) ops ts P := by
  obtain ⟨u, hrun, hu⟩ := hr
  refine ⟨u, ?_, hu⟩
  rw [runSteps, h]
  exact hrun

theorem Reaches.bind (h : Reaches s j ops ts P)
    (hk : ∀ t, t.script = ops → t.turns = ts → P t → Reaches t k rest ts' Q) : Reaches s (j + k) rest ts' Q := by
  obtain ⟨t, hrun, hs, ht, hP⟩ := h
  obtain ⟨u, hrun', hu⟩ := hk t hs ht hP
  exact ⟨u, (runSteps_add j k s t hrun).trans hrun', hu⟩

theorem Reaches.mono (h : Reaches s k ops ts P) (hPQ : ∀ t, P t → Q t) : Reaches s k ops ts Q := by
  obtain ⟨t, hrun, hs, ht, hP⟩ := h
  exact ⟨t, hrun, hs, ht, hPQ t hP⟩

/-! The single moves. -/

/-- The host gives a command to an engine that is not busy (42_control.md R171). -/
theorem step_command (hs : s.script = command i :: ops) (ht : s.turns = .host :: ts) (hb : s.busy = false) :
    step s = .next (State.issue { s with script := ops, turns := ts } (encode i)) := by
  have hops : s.script.tail = ops := by rw [hs, List.tail_cons]
  rw [step_host_turn s ts ht, hostStep_writeAt { s with turns := ts } 0x000 (encode i) ops hs (by decide) (by decide),
    ← hops]
  exact congrArg Host.Outcome.next (if_neg (by simp [hb]))

/-- A busy engine runs its latched command (42_control.md R172). -/
theorem engineStep_latched {p : Pending} (hl : s.Latched p i) : engineStep s = exec i s := by
  unfold engineStep
  rw [if_pos hl.busy, hl.pend]
  dsimp only
  rw [hl.word]

/-- The host's pop of the oldest byte of KS_OUT (10_state.md R37). -/
theorem step_popKs {b : Byte} {q : List Byte} (hs : s.script = .popKs :: ops) (ht : s.turns = .host :: ts)
    (hq : s.ksOut = b :: q) :
    step s = .next { s with ksOut := q, script := ops, log := .poppedKs b :: s.log, turns := ts } := by
  rw [step_host_turn s ts ht]
  exact hostStep_popKs hs hq

/-- WAIT goes on where the engine is not busy, and leaves a read of STATUS in the host's record (30_encoding.md R87). -/
theorem step_wait (hs : s.script = .wait :: ops) (ht : s.turns = .host :: ts) (hb : s.busy = false) :
    ∃ v dr, step s = .next { s with
      script := ops, log := .readValue statusAddr v :: s.log, turns := ts, draws := dr } := by
  have hops : s.script.tail = ops := by rw [hs, List.tail_cons]
  let seen := State.readReg { s with turns := ts } .status
  refine ⟨seen.1, seen.2.draws, ?_⟩
  rw [step_host_turn s ts ht, hostStep_wait (s := { s with turns := ts }) hs, if_neg (by simp [hb]),
    State.statusSeen_eq, ← hops]
  rfl

theorem keysPopped_poppedKs (b : Byte) (lg : List HostEvent) :
    keysPopped (.poppedKs b :: lg) = keysPopped lg ++ [b] := by
  simp [keysPopped]

theorem keysPopped_readValue (a : Nat) (v : Word) (lg : List HostEvent) :
    keysPopped (.readValue a v :: lg) = keysPopped lg := by
  simp [keysPopped]

/-! A pull from its command to its WAIT. -/

theorem Delivered.trans (h : Delivered s t n) (h' : Delivered t u m) : Delivered s u (n + m) where
  advanced := h.advanced.trans h'.advanced
  popped := by
    have hle := h'.advanced.left
    rw [h'.popped, h.popped, List.append_assoc, h.advanced.keystreamFrom_add (by omega)]
  err := h'.err.trans h.err

theorem Delivered.refl (h : Inv s) (hi : HasInstance s) : Delivered s s 0 :=
  ⟨h.advanced_zero hi, (List.append_nil _).symm, rfl⟩

/-- The number of bytes of a pull fits in a word's length field (30_encoding.md R81). -/
theorem length_lt_of_isPull (hp : IsPull s j i m) : m < 2 ^ 24 := by
  obtain ⟨hwf, -, rfl | ⟨l, -, hm⟩⟩ := hp
  · simpa [Instr.WellFormed, Instr.wellFormed] using hwf
  · omega

theorem keystream_of_isPull (hp : IsPull s j i m) : ∃ l, i = .read l ∨ i = .readExact l := by
  obtain ⟨-, -, rfl | ⟨l, rfl, -⟩⟩ := hp
  · exact ⟨m, .inr rfl⟩
  · exact ⟨l, .inl rfl⟩

/-- The dispatch of a pull that can be satisfied: it ends at once or starts to move its bytes (40_keystream.md R111,
R112). -/
theorem exec_isPull (h : Inv s) (hi : HasInstance s) (hrem : s.rem = 0#24) (hp : IsPull s 0 i m) :
    exec i s = .next (if m = 0 then s.finishEmpty else s.startBytes m) := by
  obtain ⟨-, hle, rfl | ⟨l, rfl, hm⟩⟩ := hp
  · rw [exec_readExact hi hrem]
    obtain ⟨hz, hstart⟩ | ⟨-, hover, -⟩ | ⟨hpos, -, hstart⟩ := s.startPull_cases m
    · rw [hstart, if_pos hz]
    · omega
    · rw [hstart, if_neg (by omega)]
  · rw [exec_read hi hrem]
    obtain ⟨hz, hstart⟩ | ⟨hpos, hst, -⟩ | ⟨hpos, hst, hstart⟩ := s.startRead_cases l
    · rw [hstart, if_pos (by omega)]
    · have hnone := (h.avail_eq_zero_iff hi).2 hst
      omega
    · obtain ⟨-, hoff⟩ := h.ready (hi.resolve_right hst)
      have hrest : min l (32 - s.offset.val) = m := by omega
      rw [hstart, hrest, if_neg (by omega)]

/-- What a state tells of a pull that has moved no byte. -/
theorem Delivered.of_same (h : Inv s) (hi : HasInstance s) (hseed : t.seed = s.seed) (hdepth : t.depth = s.depth)
    (hst : t.st = s.st) (hpath : t.path = s.path) (hoff : t.offset = s.offset) (hlog : t.log = s.log)
    (herr : t.err = s.err) : Delivered s t 0 where
  advanced := (h.advanced_zero hi).congr hseed hdepth hst hpath hoff
  popped := (congrArg keysPopped hlog).trans (List.append_nil _).symm
  err := herr

/-- A pull of no bytes ends with its dispatch (40_keystream.md R111, R112). -/
theorem Pulling.finishEmpty (h : Inv s) (hi : HasInstance s) (hd : s.Drained) : Pulling s.finishEmpty 0 0 where
  inv := (h.sound.withResult _).inv_finish
  hasInstance := by
    have hst : s.finishEmpty.st = s.st := by simp [State.finishEmpty, hd.noOverrun]
    unfold HasInstance
    rwa [hst]
  drained := by
    obtain ⟨-, hks, hdi, hdo⟩ := hd
    exact ⟨State.finish_ovr _, (State.finish_ksOut _).trans hks, (State.finish_din _).trans hdi,
      (State.finish_dout _).trans hdo⟩
  left := by rw [State.finishEmpty, State.finish_rem]; rfl
  running hne := absurd rfl hne
  done _ := ⟨State.finish_busy _, State.finish_result _⟩

theorem Delivered.finishEmpty (h : Inv s) (hi : HasInstance s) (hd : s.Drained) : Delivered s s.finishEmpty 0 := by
  have hst : s.finishEmpty.st = s.st := by simp [State.finishEmpty, hd.noOverrun]
  have herr : s.finishEmpty.err = s.err := by simp [State.finishEmpty, hd.noOverrun]
  exact .of_same h hi (State.finish_seed _) (State.finish_depth _) hst (State.finish_path _) (State.finish_offset _)
    (State.finish_log _) herr

/-- A pull of available bytes starts to move them (40_keystream.md R111, R112). -/
theorem Pulling.startBytes (h : Inv s) (hi : HasInstance s) (hd : s.Drained) {p : Pending} (hl : s.Latched p i)
    (hp : IsPull s 0 i m) (hpos : m ≠ 0) : Pulling (s.startBytes m) m m := by
  obtain ⟨l, hkind⟩ := keystream_of_isPull hp
  have hlt := length_lt_of_isPull hp
  obtain ⟨-, hle, -⟩ := hp
  have hst : s.st = .ready := hi.resolve_right fun he => by
    have hnone := (h.avail_eq_zero_iff hi).2 he
    omega
  have hmoves : movesBytes i = true := by obtain rfl | rfl := hkind <;> rfl
  exact
    { inv := h.startBytes hl hmoves hst (by omega)
      hasInstance := hi
      drained := ⟨hd.noOverrun, hd.ksEmpty, hd.dinEmpty, hd.doutEmpty⟩
      left := (BitVec.toNat_ofNat m 24).trans (Nat.mod_eq_of_lt hlt)
      running := fun _ => ⟨Nat.zero_add m, p, i, l, ⟨hl.busy, hl.pend, hl.word⟩, hkind⟩
      done := fun hz => absurd hz hpos }

/-- The CMD write and the dispatch of a pull (42_control.md R171, R172). -/
theorem Pulling.start (h : CanServe s) (hp : IsPull s 0 i m) (hs : s.script = command i :: ops)
    (ht : s.turns = .host :: .engine :: ts) : Reaches s 2 ops ts fun t => Pulling t m m ∧ Delivered s t 0 := by
  obtain ⟨hinv, hi, hb, hks, hdi, hdo⟩ := h
  have hagent : Inv { s with script := ops, turns := ts } := hinv.hostSide _ _ _ _ _ _ _ id
  set w := State.issue { s with script := ops, turns := ts } (encode i)
  have hwinv : Inv w := hagent.issue hb _
  have hwi : HasInstance w := hi
  have hl : w.Latched { word := encode i, argPath := s.argPath, seedIn := s.seedIn } i :=
    ⟨rfl, rfl, decodeOfEncodeIsTheInstruction i hp.1⟩
  have hd : w.Drained := ⟨rfl, hks, hdi, hdo⟩
  have hwp : IsPull w 0 i m := hp
  have hissued : Delivered s w 0 := .of_same hinv hi rfl rfl rfl rfl rfl rfl rfl
  refine .step (step_command hs ht hb) (.step (t := if m = 0 then w.finishEmpty else w.startBytes m) ?_ ?_)
  · rw [step_engine_turn _ ts rfl]
    exact (engineStep_latched hl).trans (exec_isPull hwinv hwi (hinv.idle hb) hwp)
  · split
    · next hz =>
      subst hz
      exact .refl (State.finish_script _) (State.finish_turns _)
        ⟨.finishEmpty hwinv hwi hd, hissued.trans (.finishEmpty hwinv hwi hd)⟩
    · next hne =>
      have hstarted : Delivered w (w.startBytes m) 0 := .of_same hwinv hwi rfl rfl rfl rfl rfl rfl rfl
      exact .refl rfl rfl ⟨.startBytes hwinv hwi hd hl hwp hne, hissued.trans hstarted⟩

/-- What the count of a byte leaves of a pull (40_keystream.md R106). -/
theorem byteCounted_pull (h : Inv s) (ho : s.ovr = false) (hleft : s.rem.toNat = m + 1)
    (hc : ByteCounted s t ((s.cnt + 1#24).setWidth 32)) :
    t.rem.toNat = m ∧ t.ovr = false ∧ t.err = s.err ∧ t.st = stAfterByte s ∧
    (m ≠ 0 → t.cnt.toNat = s.cnt.toNat + 1 ∧ t.busy = s.busy ∧ t.pend = s.pend) ∧
    (m = 0 → t.busy = false ∧ t.result = BitVec.ofNat 32 (s.cnt.toNat + 1)) := by
  have hcounted := (h.running (by intro hz; simp [hz] at hleft)).counted
  obtain ⟨hmore, hlast⟩ := hc
  obtain rfl | hne := Nat.eq_zero_or_pos m
  · obtain ⟨hrem, -, hb, -, hovr, hres, hst, herr⟩ := hlast (by bv_omega)
    rw [ho] at hst herr
    refine ⟨by rw [hrem]; rfl, hovr, herr, hst, fun hne => absurd rfl hne, fun _ => ⟨hb, ?_⟩⟩
    rw [hres]
    bv_omega
  · obtain ⟨hrem, hcnt, hb, hpend, hovr, -, hst, herr⟩ := hmore (by intro hz; simp [hz] at hleft; omega)
    exact ⟨by rw [hrem]; bv_omega, hovr.trans ho, herr, hst, fun _ => ⟨by rw [hcnt]; bv_omega, hb, hpend⟩,
      fun hz => by omega⟩

/-- A byte step of a pull and the host's pop of its byte (40_keystream.md R106, 10_state.md R37). -/
theorem Pulling.deliver {total : Nat} (h : Pulling s total (m + 1)) (hs : s.script = .popKs :: ops)
    (ht : s.turns = .engine :: .host :: ts) :
    Reaches s 2 ops ts fun t => Pulling t total m ∧ Delivered s t 1 := by
  obtain ⟨hinv, -, hd, hleft, hrunning, -⟩ := h
  obtain ⟨hcount, p, i, l, hl, hkind⟩ := hrunning (by omega)
  have hrem : s.rem ≠ 0#24 := by intro hz; simp [hz] at hleft
  have hst := (hinv.running hrem).st
  set s' := { s with turns := .host :: ts }
  have hinv' : Inv s' := hinv.hostSide _ _ _ _ _ _ _ id
  obtain ⟨hroom, -⟩ := keystreamByteStepDeliversAndAdvances s' l i hinv' hrem hkind
  obtain ⟨v, k, hexec, hcursor, hks, hdi, hdo, hmoved, hcounted, -, -, hscript, hlog, hturns, -⟩ :=
    hroom (by rw [show s'.ksOut = [] from hd.ksEmpty]; exact Nat.succ_pos _)
  rw [show s'.ksOut = [] from hd.ksEmpty, List.nil_append] at hks
  have hl' : s'.Latched p i := ⟨hl.busy, hl.pend, hl.word⟩
  have hvinv : Inv v := (exec_move hl' hexec).inv hinv'
  obtain ⟨hvleft, hvovr, hverr, hvst, hvmore, hvdone⟩ := byteCounted_pull hinv' hd.noOverrun hleft hcounted
  have hone : Advanced s v 1 := hinv.advanced_one hst hmoved hvst
  refine .step (t := v) ?_ (.step (step_popKs (hscript.trans hs) hturns hks) (.refl rfl rfl ⟨?_, ?_⟩))
  · rw [step_engine_turn s _ ht]
    exact (engineStep_latched hl').trans hexec
  · exact
      { inv := hvinv.hostSide _ _ _ _ _ _ _ fun ⟨_, hb⟩ => ⟨Nat.zero_le _, hb⟩
        hasInstance := hone.hasInstance
        drained := ⟨hvovr, rfl, hdi.trans hd.dinEmpty, hdo.trans hd.doutEmpty⟩
        left := hvleft
        running := fun hne => by
          obtain ⟨hcnt, hb, hpend⟩ := hvmore hne
          refine ⟨?_, p, i, l, ⟨hb.trans hl.busy, hpend.trans hl.pend, hl.word⟩, hkind⟩
          rw [hcnt, ← hcount, Nat.add_assoc, Nat.add_comm 1 m]
        done := fun hz => by
          obtain ⟨hb, hres⟩ := hvdone hz
          refine ⟨hb, ?_⟩
          rw [hres, ← hcount, hz] }
  · refine ⟨hone.congr rfl rfl rfl rfl rfl, ?_, hverr⟩
    have hpop : keysPopped (.poppedKs k :: v.log) = keysPopped s.log ++ [k] := by
      rw [keysPopped_poppedKs, hlog]
    rw [keystreamFrom_one (show cursorByte s = some k from hcursor)]
    exact hpop

/-- All byte steps of a pull, each with its pop (40_keystream.md R106, R107). -/
theorem Pulling.deliverAll {total : Nat} (m : Nat) (h : Pulling s total m)
    (hs : s.script = List.replicate m .popKs ++ ops)
    (ht : s.turns = (List.replicate m [Turn.engine, .host]).flatten ++ ts) :
    Reaches s (2 * m) ops ts fun t => Pulling t total 0 ∧ Delivered s t m := by
  induction m generalizing s with
  | zero => exact .refl hs ht ⟨h, .refl h.inv h.hasInstance⟩
  | succ m ih =>
    rw [show 2 * (m + 1) = 2 + 2 * m by omega, Nat.add_comm m 1]
    refine (h.deliver hs ht).bind fun t hts htt ⟨hpull, hone⟩ => ?_
    exact (ih hpull hts htt).mono fun u ⟨hdone, hrest⟩ => ⟨hdone, hone.trans hrest⟩

/-- WAIT after a pull that has finished (30_encoding.md R87). -/
theorem Pulling.wait {total : Nat} (h : Pulling s total 0) (hs : s.script = .wait :: ops)
    (ht : s.turns = .host :: ts) : Reaches s 1 ops ts fun t => Pulling t total 0 ∧ Delivered s t 0 := by
  obtain ⟨hb, hres⟩ := h.done rfl
  obtain ⟨v, dr, hstep⟩ := step_wait hs ht hb
  refine .step hstep (.refl rfl rfl ⟨?_, ?_⟩)
  · obtain ⟨hovr, hks, hdi, hdo⟩ := h.drained
    exact
      { inv := h.inv.hostSide _ _ _ _ _ _ _ id
        hasInstance := h.hasInstance
        drained := ⟨hovr, hks, hdi, hdo⟩
        left := h.left
        running := fun hne => absurd rfl hne
        done := fun _ => ⟨hb, hres⟩ }
  · refine ⟨(h.inv.advanced_zero h.hasInstance).congr rfl rfl rfl rfl rfl, ?_, rfl⟩
    exact (keysPopped_readValue _ _ _).trans (List.append_nil _).symm

/-- A whole pull, from its CMD write to its WAIT, moves exactly its bytes (40_keystream.md R107, R111, R112). -/
theorem pull_delivers (h : CanServe s) (hp : IsPull s 0 i m) (hs : s.script = pullServed i m ++ ops)
    (ht : s.turns = pullTurns m ++ ts) :
    Reaches s (2 * m + 3) ops ts fun t => Pulling t m 0 ∧ Delivered s t m := by
  have hs' : s.script = command i :: (List.replicate m .popKs ++ (.wait :: ops)) := by
    simpa [pullServed] using hs
  have ht' : s.turns = .host :: .engine :: ((List.replicate m [Turn.engine, .host]).flatten ++ (.host :: ts)) := by
    simpa [pullTurns] using ht
  rw [show 2 * m + 3 = 2 + (2 * m + 1) by omega]
  refine (Pulling.start h hp hs' ht').bind fun t hts htt ⟨hstart, hnone⟩ => ?_
  refine (hstart.deliverAll m hts htt).bind fun u hus hut ⟨hdone, hall⟩ => ?_
  refine (hdone.wait hus hut).mono fun v ⟨hend, hwait⟩ => ⟨hend, ?_⟩
  rw [← Nat.zero_add m]
  exact hnone.trans (hall.trans hwait)

/-- A finished pull has delivered its bytes, as the statements about whole commands say it. -/
theorem Pulling.moveDone (h : Pulling t n 0) (hd : Delivered s t n) : MoveDone s t n := by
  obtain ⟨hb, hres⟩ := h.done rfl
  exact ⟨hres, hb, hd.err, hd.advanced.seed, hd.advanced.depth, h.drained.ksEmpty, h.drained.dinEmpty,
    h.drained.doutEmpty, hd.advanced.moved, h.inv⟩

/-- After a finished pull the engine can serve another. -/
theorem Pulling.canServe {total : Nat} (h : Pulling s total 0) : CanServe s := by
  obtain ⟨hb, -⟩ := h.done rfl
  exact ⟨h.inv, h.hasInstance, hb, h.drained.ksEmpty, h.drained.dinEmpty, h.drained.doutEmpty⟩

theorem pullTurns_length (n : Nat) : (pullTurns n).length = 2 * n + 3 := by
  simp [pullTurns]
  omega

/-- A sequence of pulls moves the bytes of all of them (40_keystream.md R114). -/
theorem pulls_deliver (cs : List (Instr × Nat)) (h : CanServe s) (hcs : ArePulls s 0 cs)
    (hs : s.script = (cs.flatMap fun c => pullServed c.1 c.2) ++ ops)
    (ht : s.turns = (cs.flatMap fun c => pullTurns c.2) ++ ts) :
    Reaches s (cs.flatMap fun c => pullTurns c.2).length ops ts fun t =>
      CanServe t ∧ Delivered s t (cs.map Prod.snd).sum := by
  induction cs generalizing s with
  | nil =>
    obtain ⟨hinv, hi, -⟩ := id h
    exact .refl hs ht ⟨h, .refl hinv hi⟩
  | cons c cs ih =>
    obtain ⟨hp, hrest⟩ := hcs
    rw [List.flatMap_cons, List.append_assoc] at hs ht
    rw [List.flatMap_cons, List.length_append, pullTurns_length, List.map_cons, List.sum_cons]
    refine (pull_delivers h hp hs ht).bind fun t hts htt ⟨hdone, hfirst⟩ => ?_
    have hcs' : ArePulls t 0 cs := hfirst.advanced.arePulls cs 0 (by rwa [Nat.add_comm] at hrest)
    exact (ih hdone.canServe hcs' hts htt).mono fun u ⟨hserve, hall⟩ => ⟨hserve, hfirst.trans hall⟩

/-- READ_EXACT of available bytes is a pull of them (40_keystream.md R112). -/
theorem isPull_readExact (hword : n < 2 ^ 24) (hle : n ≤ s.avail) : IsPull s 0 (.readExact n) n :=
  ⟨by simpa [Instr.WellFormed, Instr.wellFormed] using hword, by omega, .inl rfl⟩

/-- The run of a sequence of pulls (40_keystream.md R114). -/
theorem runAll_pulls (h : CanServe s) (cs : List (Instr × Nat)) (hcs : ArePulls s 0 cs) :
    ∃ t, runAll s (cs.flatMap fun c => pullServed c.1 c.2) (cs.flatMap fun c => pullTurns c.2) = .next t ∧
      CanServe t ∧ Delivered s t (cs.map Prod.snd).sum := by
  obtain ⟨hinv, hi, hb, hks, hdi, hdo⟩ := h
  set w : State := { s with
    script := cs.flatMap fun c => pullServed c.1 c.2, turns := cs.flatMap fun c => pullTurns c.2 }
  have hw : CanServe w := ⟨hinv.hostSide _ _ _ _ _ _ _ id, hi, hb, hks, hdi, hdo⟩
  have hsame : Delivered s w 0 := .of_same hinv hi rfl rfl rfl rfl rfl rfl rfl
  obtain ⟨t, hrun, -, -, hserve, hall⟩ := pulls_deliver cs hw (hsame.advanced.arePulls cs 0 hcs)
    (List.append_nil _).symm (List.append_nil _).symm
  refine ⟨t, hrun, hserve, ?_⟩
  rw [← Nat.zero_add (cs.map Prod.snd).sum]
  exact hsame.trans hall

end

/-- Settles O38: READ_EXACT is a pull of its length. -/
theorem pullDeliversExactlyItsBytes : Obligations.PullDeliversExactlyItsBytes := by
  intro s n rest ts h hword hle hs ht
  exact (pull_delivers h (isPull_readExact hword hle) hs ht).mono fun t ⟨hdone, hall⟩ =>
    ⟨hall.popped, hdone.moveDone hall⟩

/-- Settles O39: READ is a pull of what it can take from the current leaf. -/
theorem readDeliversUpToTheLeafEnd : Obligations.ReadDeliversUpToTheLeafEnd := by
  intro s n m rest ts ⟨hinv, hst, hb, hks, hdi, hdo⟩ _ hword hm hs ht
  obtain ⟨-, hoff⟩ := hinv.ready hst
  have hleaf := State.leafRest_le_avail hst
  have hp : IsPull s 0 (.read n) m :=
    ⟨by simpa [Instr.WellFormed, Instr.wellFormed] using hword, by omega, .inr ⟨n, rfl, by omega⟩⟩
  exact (pull_delivers ⟨hinv, .inl hst, hb, hks, hdi, hdo⟩ hp hs ht).mono fun t ⟨hdone, hall⟩ =>
    ⟨hall.popped, hdone.moveDone hall⟩

/-- Settles O42: the sequence and the single READ_EXACT both move the cursor on by the same number of bytes. -/
theorem splitPullsEqualOnePull : Obligations.SplitPullsEqualOnePull := by
  intro s cs T h hcs hT hword
  subst hT
  obtain ⟨t, hrun, ⟨htinv, -⟩, hall⟩ := runAll_pulls h cs hcs
  have hleft := hall.advanced.left
  have hone : IsPull s 0 (.readExact (cs.map Prod.snd).sum) (cs.map Prod.snd).sum :=
    isPull_readExact hword (by omega)
  obtain ⟨u, hrun', ⟨huinv, -⟩, hall'⟩ := runAll_pulls h [(_, _)] ⟨hone, trivial⟩
  rw [List.flatMap_singleton, List.flatMap_singleton] at hrun'
  exact ⟨t, u, hrun, hrun', hall.popped, hall'.popped.trans hall.popped.symm,
    hall.advanced.samePosition hall'.advanced htinv huinv⟩

end Sys2Proof.Machine
end

section
/-! SUPPORT. The XOR command and its pass of the chunk loop (41_cipher.md R150, R153; 42_control.md R171, R172): the
host gives the command, pushes and takes each byte as it comes, waits and checks. -/

namespace Sys2Proof.Machine

open Sys2Proof.Expected

/-- While DOUT is full the engine holds (41_cipher.md R150). -/
theorem State.xorStep_full {s : State} {k x : Byte} {rest : List Byte} (n : Nat) (hk : s.leafByte = some k)
    (hdin : s.din = x :: rest) (hfull : s.dout.length = Config.fifoDepth) : s.xorStep n = .next s := by
  rw [s.xorStep_eq n k x rest hk hdin, if_neg (by omega)]

/-- Settles O36: the shared byte step, with the oldest DIN byte taken and its XOR with the byte under the cursor at the
end of DOUT. -/
theorem xorByteStepCombinesAndAdvances : Obligations.XorByteStepCombinesAndAdvances := by
  intro s n h hrem
  rw [exec_xor_running n hrem]
  have hst := (h.running hrem).st
  obtain ⟨-, hoff⟩ := h.ready hst
  obtain ⟨k, hleaf, hcursor⟩ := h.leafByte_eq_cursorByte hrem
  refine ⟨fun x rest hdin hroom => ⟨_, k, State.xorStep_room n hleaf hdin hroom, hcursor, ?_⟩, ?_⟩
  · exact ⟨s.byteStep_din _ _ _ _, s.byteStep_dout _ _ _ _, s.byteStep_ksOut _ _ _ _, h.byteStep_cursorMoved _ _ _ _,
      State.byteStep_byteCounted hst hoff _ _ _ _, s.byteStep_hostSideSame _ _ _ _⟩
  · rintro (hempty | hfull)
    · exact s.xorStep_empty n hempty
    · cases hdin : s.din with
      | nil => exact s.xorStep_empty n hdin
      | cons x rest => exact State.xorStep_full n hleaf hdin hfull

/-- The input XORed with the next keystream bytes (41_cipher.md R150). -/
def xorKeystream (s : State) (input : List Byte) : List Byte :=
  List.zipWith (· ^^^ ·) input (keystreamFrom s input.length)

/-- The engine serves an XOR of `total` bytes of which `m` are left to move, and has combined every byte pushed so far,
which the host has taken; with none left the command has finished (41_cipher.md R150). -/
structure Combining (s : State) (total m : Nat) : Prop where
  inv : Inv s
  hasInstance : HasInstance s
  drained : s.Drained
  left : s.rem.toNat = m
  running : m ≠ 0 → ∃ p, s.Latched p (.xor total)
  done : m = 0 → s.busy = false ∧ s.result = BitVec.ofNat 32 total

/-- From `s` to `t` the host has popped the XOR of `input` with the next keystream bytes, and no error was raised. -/
structure Combined (s t : State) (input : List Byte) : Prop where
  advanced : Advanced s t input.length
  popped : outputPopped t.log = outputPopped s.log ++ xorKeystream s input
  err : t.err = s.err

section
variable {s t u : State} {n m total : Nat} {x : Byte} {q input a b : List Byte} {ops : List HostOp} {ts : List Turn}

/-! The keystream applied to an input. -/

theorem keystreamFrom_length (s : State) (n : Nat) : (keystreamFrom s n).length = n := by
  simp [keystreamFrom]

theorem xorKeystream_length (s : State) (input : List Byte) : (xorKeystream s input).length = input.length := by
  simp [xorKeystream, keystreamFrom_length]

/-- An input in two parts meets the next bytes and those after them (40_keystream.md R107). -/
theorem Advanced.xorKeystream_append (h : Advanced s t a.length) (hb : b.length ≤ t.avail) :
    xorKeystream s (a ++ b) = xorKeystream s a ++ xorKeystream t b := by
  unfold xorKeystream
  rw [List.length_append, h.keystreamFrom_add hb, List.zipWith_append (keystreamFrom_length s a.length).symm]

theorem xorKeystream_take (s : State) (hle : n ≤ input.length) :
    xorKeystream s (input.take n) = List.zipWith (· ^^^ ·) (input.take n) (keystreamFrom s n) := by
  rw [xorKeystream, List.length_take, Nat.min_eq_left hle]

theorem xorKeystream_singleton {k : Byte} (hk : cursorByte s = some k) : xorKeystream s [x] = [x ^^^ k] := by
  unfold xorKeystream
  rw [List.length_singleton, keystreamFrom_one hk]
  rfl

/-! The single moves. -/

/-- The host's push into a DIN with room (10_state.md R37). -/
theorem step_pushOrStop (hs : s.script = .pushOrStop x :: ops) (ht : s.turns = .host :: ts)
    (hroom : s.din.length < Config.fifoDepth) :
    step s = .next { s with din := s.din ++ [x], script := ops, turns := ts } := by
  obtain ⟨-, -, -, -, -, -, hpush, -⟩ := channelsAreBoundedFifos { s with turns := ts } x ops []
  rw [step_host_turn s ts ht]
  exact hpush hs hroom

/-- The host's pop of the oldest byte of DOUT (10_state.md R37). -/
theorem step_popDoutOrStop (hs : s.script = .popDoutOrStop :: ops) (ht : s.turns = .host :: ts) (hq : s.dout = x :: q) :
    step s = .next { s with dout := q, script := ops, log := .poppedDout x :: s.log, turns := ts } := by
  obtain ⟨-, -, -, -, -, -, -, hpop⟩ := channelsAreBoundedFifos { s with turns := ts } x ops q
  rw [step_host_turn s ts ht]
  exact hpop hs hq

/-- CHECK goes on outside FAULT, and leaves a read of STATUS in the host's record (30_encoding.md R87). -/
theorem step_check (hs : s.script = .check :: ops) (ht : s.turns = .host :: ts) (hb : s.busy = false)
    (hst : s.st ≠ .fault) :
    ∃ v dr, step s = .next { s with
      script := ops, log := .readValue statusAddr v :: s.log, turns := ts, draws := dr } := by
  have hops : s.script.tail = ops := by rw [hs, List.tail_cons]
  let seen := State.readReg { s with turns := ts } .status
  refine ⟨seen.1, seen.2.draws, ?_⟩
  rw [step_host_turn s ts ht, hostStep_check (s := { s with turns := ts }) hs,
    stateField_status { s with turns := ts } hb, if_neg (mt (stCode_eq_three s.st).1 hst), State.statusSeen_eq, ← hops]
  rfl

theorem outputPopped_poppedDout (x : Byte) (lg : List HostEvent) :
    outputPopped (.poppedDout x :: lg) = outputPopped lg ++ [x] := by
  simp [outputPopped]

theorem outputPopped_readValue (addr : Nat) (v : Word) (lg : List HostEvent) :
    outputPopped (.readValue addr v :: lg) = outputPopped lg := by
  simp [outputPopped]

/-! An XOR pass from its command to its CHECK. -/

theorem Combined.trans (h : Combined s t a) (h' : Combined t u b) : Combined s u (a ++ b) where
  advanced := by
    rw [List.length_append]
    exact h.advanced.trans h'.advanced
  popped := by
    have hle := h'.advanced.left
    rw [h'.popped, h.popped, List.append_assoc, h.advanced.xorKeystream_append (by omega)]
  err := h'.err.trans h.err

/-- What a state tells of a pass that has moved no byte. -/
theorem Combined.of_same (h : Inv s) (hi : HasInstance s) (hseed : t.seed = s.seed) (hdepth : t.depth = s.depth)
    (hst : t.st = s.st) (hpath : t.path = s.path) (hoff : t.offset = s.offset)
    (hlog : outputPopped t.log = outputPopped s.log) (herr : t.err = s.err) : Combined s t [] where
  advanced := (h.advanced_zero hi).congr hseed hdepth hst hpath hoff
  popped := hlog.trans (List.append_nil _).symm
  err := herr

/-- The dispatch of an XOR of available length: it ends at once or starts to move its bytes (41_cipher.md R150). -/
theorem exec_xor_available (hi : HasInstance s) (hrem : s.rem = 0#24) (hle : n ≤ s.avail) :
    exec (.xor n) s = .next (if n = 0 then s.finishEmpty else s.startBytes n) := by
  rw [exec_xor hi hrem]
  obtain ⟨hz, hstart⟩ | ⟨-, hover, -⟩ | ⟨hpos, -, hstart⟩ := s.startPull_cases n
  · rw [hstart, if_pos hz]
  · omega
  · rw [hstart, if_neg (by omega)]

/-- The end of an XOR is the end of any data command. -/
theorem Pulling.combining (h : Pulling s total 0) : Combining s total 0 :=
  ⟨h.inv, h.hasInstance, h.drained, h.left, fun hne => absurd rfl hne, h.done⟩

/-- An XOR of available bytes starts to move them (41_cipher.md R150). -/
theorem Combining.startBytes (h : Inv s) (hi : HasInstance s) (hd : s.Drained) {p : Pending} (hl : s.Latched p (.xor n))
    (hword : n < 2 ^ 24) (hle : n ≤ s.avail) (hpos : n ≠ 0) : Combining (s.startBytes n) n n := by
  have hst : s.st = .ready := hi.resolve_right fun he => by
    have hnone := (h.avail_eq_zero_iff hi).2 he
    omega
  exact
    { inv := h.startBytes hl rfl hst hle
      hasInstance := hi
      drained := ⟨hd.noOverrun, hd.ksEmpty, hd.dinEmpty, hd.doutEmpty⟩
      left := (BitVec.toNat_ofNat n 24).trans (Nat.mod_eq_of_lt hword)
      running := fun _ => ⟨p, hl.busy, hl.pend, hl.word⟩
      done := fun hz => absurd hz hpos }

/-- A length that fits in a word's length field makes a well-formed XOR (30_encoding.md R81). -/
theorem wellFormed_xor (hword : n < 2 ^ 24) : (Instr.xor n).WellFormed := by
  simpa [Instr.WellFormed, Instr.wellFormed] using hword

/-- The CMD write and the dispatch of an XOR of available length (42_control.md R171, R172). -/
theorem Combining.start (h : CanServe s) (hword : n < 2 ^ 24) (hle : n ≤ s.avail)
    (hs : s.script = command (.xor n) :: ops) (ht : s.turns = .host :: .engine :: ts) :
    Reaches s 2 ops ts fun t => Combining t n n ∧ Combined s t [] := by
  obtain ⟨hinv, hi, hb, hks, hdi, hdo⟩ := h
  have hagent : Inv { s with script := ops, turns := ts } := hinv.hostSide _ _ _ _ _ _ _ id
  set w := State.issue { s with script := ops, turns := ts } (encode (.xor n))
  have hwinv : Inv w := hagent.issue hb _
  have hwi : HasInstance w := hi
  have hl : w.Latched { word := encode (.xor n), argPath := s.argPath, seedIn := s.seedIn } (.xor n) :=
    ⟨rfl, rfl, decodeOfEncodeIsTheInstruction _ (wellFormed_xor hword)⟩
  have hd : w.Drained := ⟨rfl, hks, hdi, hdo⟩
  have hwle : n ≤ w.avail := hle
  have hissued : Combined s w [] := .of_same hinv hi rfl rfl rfl rfl rfl rfl rfl
  refine .step (step_command hs ht hb) (.step (t := if n = 0 then w.finishEmpty else w.startBytes n) ?_ ?_)
  · rw [step_engine_turn _ ts rfl]
    exact (engineStep_latched hl).trans (exec_xor_available hwi (hinv.idle hb) hwle)
  · split
    · next hz =>
      subst hz
      have hended := Delivered.finishEmpty hwinv hwi hd
      have hempty : Combined w w.finishEmpty [] :=
        ⟨hended.advanced, (congrArg outputPopped (State.finish_log _)).trans (List.append_nil _).symm, hended.err⟩
      exact .refl (State.finish_script _) (State.finish_turns _)
        ⟨(Pulling.finishEmpty hwinv hwi hd).combining, hissued.trans hempty⟩
    · next hne =>
      have hstarted : Combined w (w.startBytes n) [] := .of_same hwinv hwi rfl rfl rfl rfl rfl rfl rfl
      exact .refl rfl rfl ⟨.startBytes hwinv hwi hd hl hword hwle hne, hissued.trans hstarted⟩

/-- What the count of a byte leaves of an XOR (41_cipher.md R150). -/
theorem byteCounted_xor {r : Word} (ho : s.ovr = false) (hleft : s.rem.toNat = m + 1) (hc : ByteCounted s t r) :
    t.rem.toNat = m ∧ t.ovr = false ∧ t.err = s.err ∧ t.st = stAfterByte s ∧
    (m ≠ 0 → t.busy = s.busy ∧ t.pend = s.pend) ∧ (m = 0 → t.busy = false ∧ t.result = r) := by
  obtain ⟨hmore, hlast⟩ := hc
  obtain rfl | hpos := Nat.eq_zero_or_pos m
  · obtain ⟨hrem, -, hb, -, hovr, hres, hst, herr⟩ := hlast (by bv_omega)
    rw [ho] at hst herr
    exact ⟨by rw [hrem]; rfl, hovr, herr, hst, fun hne => absurd rfl hne, fun _ => ⟨hb, hres⟩⟩
  · obtain ⟨hrem, -, hb, hpend, hovr, -, hst, herr⟩ := hmore (by intro hz; simp [hz] at hleft; omega)
    exact ⟨by rw [hrem]; bv_omega, hovr.trans ho, herr, hst, fun _ => ⟨hb, hpend⟩, fun hz => by omega⟩

/-- The push of a byte, its byte step and the host's pop of the result (41_cipher.md R150, 10_state.md R37). -/
theorem Combining.combine (h : Combining s total (m + 1)) (hs : s.script = .pushOrStop x :: .popDoutOrStop :: ops)
    (ht : s.turns = .host :: .engine :: .host :: ts) :
    Reaches s 3 ops ts fun t => Combining t total m ∧ Combined s t [x] := by
  obtain ⟨hinv, -, hd, hleft, hrunning, -⟩ := h
  obtain ⟨p, hl⟩ := hrunning (by omega)
  obtain ⟨hovr, hksEmpty, hdinEmpty, hdoutEmpty⟩ := hd
  have hrem : s.rem ≠ 0#24 := by intro hz; simp [hz] at hleft
  have hroom : 0 < Config.fifoDepth := Nat.succ_pos _
  set w : State := { s with din := s.din ++ [x], script := .popDoutOrStop :: ops, turns := .host :: ts }
  have hwdin : w.din = [x] := congrArg (· ++ [x]) hdinEmpty
  have hone_le : w.din.length ≤ Config.fifoDepth := by rwa [hwdin]
  have hwinv : Inv w := hinv.hostSide _ _ _ _ _ _ _ fun ⟨hks, _, hdo⟩ => ⟨hks, hone_le, hdo⟩
  have hwl : w.Latched p (.xor total) := ⟨hl.busy, hl.pend, hl.word⟩
  obtain ⟨hserve, -⟩ := xorByteStepCombinesAndAdvances w total hwinv hrem
  obtain ⟨v, k, hexec, hcursor, hdi, hdo, hks, hmoved, hcounted, -, -, hscript, hlog, hturns, -⟩ :=
    hserve x [] hwdin (by rw [show w.dout = [] from hdoutEmpty]; exact hroom)
  rw [show w.dout = [] from hdoutEmpty, List.nil_append] at hdo
  have hvinv : Inv v := (exec_move hwl hexec).inv hwinv
  obtain ⟨hvleft, hvovr, hverr, hvst, hvmore, hvdone⟩ := byteCounted_xor hovr hleft hcounted
  have hone : Advanced s v 1 := hinv.advanced_one (hinv.running hrem).st hmoved hvst
  refine .step (step_pushOrStop hs ht (by rw [hdinEmpty]; exact hroom)) (.step (t := v) ?_
    (.step (step_popDoutOrStop hscript hturns hdo) (.refl rfl rfl ⟨?_, ?_⟩)))
  · rw [step_engine_turn _ _ rfl]
    exact (engineStep_latched hwl).trans hexec
  · exact
      { inv := hvinv.hostSide _ _ _ _ _ _ _ fun ⟨hksb, hdib, _⟩ => ⟨hksb, hdib, Nat.zero_le _⟩
        hasInstance := hone.hasInstance
        drained := ⟨hvovr, hks.trans hksEmpty, hdi, rfl⟩
        left := hvleft
        running := fun hne => by
          obtain ⟨hb, hpend⟩ := hvmore hne
          exact ⟨p, hb.trans hl.busy, hpend.trans hl.pend, hl.word⟩
        done := hvdone }
  · refine ⟨hone.congr rfl rfl rfl rfl rfl, ?_, hverr⟩
    have hpop : outputPopped (.poppedDout (x ^^^ k) :: v.log) = outputPopped s.log ++ [x ^^^ k] := by
      rw [outputPopped_poppedDout, hlog]
    rw [xorKeystream_singleton (show cursorByte s = some k from hcursor)]
    exact hpop

/-- All bytes of an XOR, each pushed, combined and popped (41_cipher.md R150). -/
theorem Combining.combineAll (input : List Byte) (h : Combining s total input.length)
    (hs : s.script = (input.map fun x => [HostOp.pushOrStop x, .popDoutOrStop]).flatten ++ ops)
    (ht : s.turns = (List.replicate input.length [Turn.host, .engine, .host]).flatten ++ ts) :
    Reaches s (3 * input.length) ops ts fun t => Combining t total 0 ∧ Combined s t input := by
  induction input generalizing s with
  | nil => exact .refl hs ht ⟨h, .of_same h.inv h.hasInstance rfl rfl rfl rfl rfl rfl rfl⟩
  | cons x input ih =>
    rw [List.length_cons, show 3 * (input.length + 1) = 3 + 3 * input.length by omega]
    refine (h.combine hs ht).bind fun t hts htt ⟨hnext, hone⟩ => ?_
    exact (ih hnext hts htt).mono fun u ⟨hdone, hrest⟩ => ⟨hdone, hone.trans hrest⟩

/-- Moves of the host that only look leave a finished XOR as it is. -/
theorem Combining.observed (h : Combining s total 0) {lg : List HostEvent} (ops : List HostOp) (ts : List Turn)
    (dr : Nat) (hlog : outputPopped lg = outputPopped s.log) :
    Combining { s with script := ops, log := lg, turns := ts, draws := dr } total 0 ∧
      Combined s { s with script := ops, log := lg, turns := ts, draws := dr } [] := by
  obtain ⟨hovr, hks, hdi, hdo⟩ := h.drained
  exact
    ⟨{ inv := h.inv.hostSide _ _ _ _ _ _ _ id
       hasInstance := h.hasInstance
       drained := ⟨hovr, hks, hdi, hdo⟩
       left := h.left
       running := fun hne => absurd rfl hne
       done := h.done }, .of_same h.inv h.hasInstance rfl rfl rfl rfl rfl hlog rfl⟩

/-- WAIT and CHECK after an XOR that has finished (30_encoding.md R87). -/
theorem Combining.waitCheck (h : Combining s total 0) (hs : s.script = .wait :: .check :: ops)
    (ht : s.turns = .host :: .host :: ts) :
    Reaches s 2 ops ts fun t => Combining t total 0 ∧ Combined s t [] := by
  obtain ⟨hb, -⟩ := h.done rfl
  have hst : s.st ≠ .fault := by
    intro hf
    simpa [HasInstance, hf] using h.hasInstance
  obtain ⟨v, dr, hwait⟩ := step_wait hs ht hb
  set w : State := { s with
    script := .check :: ops, log := .readValue statusAddr v :: s.log, turns := .host :: ts, draws := dr }
  obtain ⟨v', dr', hcheck⟩ := step_check (s := w) rfl rfl hb hst
  refine .step hwait (.step hcheck (.refl rfl rfl (h.observed _ _ _ ?_)))
  rw [outputPopped_readValue, outputPopped_readValue]

/-- After a finished XOR the engine can serve another. -/
theorem Combining.canServe (h : Combining s total 0) : CanServe s := by
  obtain ⟨hb, -⟩ := h.done rfl
  exact ⟨h.inv, h.hasInstance, hb, h.drained.ksEmpty, h.drained.dinEmpty, h.drained.doutEmpty⟩

/-- A whole pass, from its CMD write to its CHECK (41_cipher.md R150, R153). -/
theorem pass_combines (input : List Byte) (h : CanServe s) (hword : input.length < 2 ^ 24)
    (hle : input.length ≤ s.avail) (hs : s.script = chunkPassOverlapped input ++ ops)
    (ht : s.turns = passTurns input.length ++ ts) :
    Reaches s (3 * input.length + 4) ops ts fun t => Combining t input.length 0 ∧ Combined s t input := by
  have hs' : s.script = command (.xor input.length) ::
      ((input.map fun x => [HostOp.pushOrStop x, .popDoutOrStop]).flatten ++ (.wait :: .check :: ops)) := by
    simpa [chunkPassOverlapped] using hs
  have ht' : s.turns = .host :: .engine ::
      ((List.replicate input.length [Turn.host, .engine, .host]).flatten ++ (.host :: .host :: ts)) := by
    simpa [passTurns] using ht
  rw [show 3 * input.length + 4 = 2 + (3 * input.length + 2) by omega]
  refine (Combining.start h hword hle hs' ht').bind fun t hts htt ⟨hstart, hnone⟩ => ?_
  refine (hstart.combineAll input hts htt).bind fun u hus hut ⟨hdone, hall⟩ => ?_
  refine (hdone.waitCheck hus hut).mono fun v ⟨hend, hwait⟩ => ⟨hend, ?_⟩
  rw [← List.append_nil input]
  exact hnone.trans (hall.trans hwait)

end

/-- Settles O40: one whole pass. -/
theorem xorPassCombinesInputWithKeystream : Obligations.XorPassCombinesInputWithKeystream := by
  intro s input rest ts h hword hle hs ht
  refine (pass_combines input h hword hle hs ht).mono fun t ⟨hend, hall⟩ => ⟨hall.popped, ?_⟩
  obtain ⟨hb, hres⟩ := hend.done rfl
  exact ⟨hres, hb, hall.err, hall.advanced.seed, hall.advanced.depth, hend.drained.ksEmpty, hend.drained.dinEmpty,
    hend.drained.doutEmpty, hall.advanced.moved, hend.inv⟩

end Sys2Proof.Machine
end

section
/-! SUPPORT. The chunk loop of the host (41_cipher.md R152, R153, R155; 70_reset_and_hazards.md R223): its chunks, the
run of its passes one after another, and how the run ends where the engine has too few bytes left. -/

namespace Sys2Proof.Machine

open Sys2Proof.Expected

/-- The chunks of at most `n` passes over an input; the first one shorter than the chunk size is the last, and may be
empty (41_cipher.md R153). -/
def chunksOf (chunk : Nat) : Nat → List Byte → List (List Byte)
  | 0, _ => []
  | n + 1, input =>
    input.take chunk :: if (input.take chunk).length < chunk then [] else chunksOf chunk n (input.drop chunk)

/-- The chunks of the whole chunk loop over an input. -/
def loopChunks (chunk : Nat) (input : List Byte) : List (List Byte) := chunksOf chunk (input.length / chunk + 1) input

/-- An error has ended the command in flight: FAULT with CAPACITY_ERROR, the bytes `q` still in DIN, nothing in DOUT,
and `out` all that the host has popped (41_cipher.md R155). -/
structure Failed (t : State) (q out : List Byte) : Prop where
  st : t.st = .fault
  err : t.err = .capacityError
  idle : t.busy = false
  din : t.din = q
  doutEmpty : t.dout = []
  popped : outputPopped t.log = out

section
variable {s t : State} {n chunk : Nat} {x : Byte} {q out input : List Byte} {ops : List HostOp} {ts : List Turn}
  {P : State → Prop}

/-! The chunks. -/

theorem chunkPasses_eq_flatMap (pass : List Byte → List HostOp) (chunk n : Nat) (input : List Byte) :
    chunkPasses pass chunk n input = (chunksOf chunk n input).flatMap pass := by
  induction n generalizing input with
  | zero => rfl
  | succ n ih =>
    rw [chunkPasses, chunksOf, List.flatMap_cons]
    split
    · rfl
    · rw [ih]

theorem passesTurns_eq_flatMap (chunk n : Nat) (input : List Byte) :
    passesTurns chunk n input.length = (chunksOf chunk n input).flatMap fun c => passTurns c.length := by
  induction n generalizing input with
  | zero => rfl
  | succ n ih =>
    rw [passesTurns, chunksOf, List.flatMap_cons, List.length_take]
    split
    · rfl
    · rw [← ih, List.length_drop]

/-- The loop is the passes over its chunks. -/
theorem loopOver_eq_flatMap (chunk : Nat) (input : List Byte) :
    loopOver chunk input = (loopChunks chunk input).flatMap chunkPassOverlapped :=
  chunkPasses_eq_flatMap _ _ _ _

theorem loopTurns_eq_flatMap (chunk : Nat) (input : List Byte) :
    loopTurns chunk input.length = (loopChunks chunk input).flatMap fun c => passTurns c.length :=
  passesTurns_eq_flatMap _ _ _

/-- Enough passes cover the input. -/
theorem chunksOf_flatten (n : Nat) (input : List Byte) (hn : input.length < n * chunk) :
    (chunksOf chunk n input).flatten = input := by
  induction n generalizing input with
  | zero => omega
  | succ n ih =>
    rw [chunksOf, List.flatten_cons]
    split
    · next hshort =>
      rw [List.length_take] at hshort
      rw [List.flatten_nil, List.append_nil, List.take_of_length_le (by omega)]
    · next hwhole =>
      have hmul := Nat.add_one_mul n chunk
      rw [List.length_take] at hwhole
      rw [ih _ (by rw [List.length_drop]; omega), List.take_append_drop]

theorem loopChunks_flatten (h1 : 1 ≤ chunk) (input : List Byte) : (loopChunks chunk input).flatten = input :=
  chunksOf_flatten _ _ (Nat.lt_mul_of_div_lt (Nat.lt_succ_self _) h1)

theorem length_le_of_mem_chunksOf (n : Nat) (input : List Byte) {c : List Byte} (hc : c ∈ chunksOf chunk n input) :
    c.length ≤ chunk := by
  induction n generalizing input with
  | zero => cases hc
  | succ n ih =>
    rw [chunksOf] at hc
    obtain rfl | hrest := List.mem_cons.1 hc
    · exact List.length_take_le _ _
    · split at hrest
      · cases hrest
      · exact ih _ hrest

/-- A whole chunk at the front is a pass of its own. -/
theorem loopChunks_of_le (h1 : 1 ≤ chunk) (hle : chunk ≤ input.length) :
    loopChunks chunk input = input.take chunk :: loopChunks chunk (input.drop chunk) := by
  have hpasses : (input.length - chunk) / chunk + 1 = input.length / chunk := (Nat.div_eq_sub_div h1 hle).symm
  have hwhole : ¬ (input.take chunk).length < chunk := by
    rw [List.length_take]
    omega
  rw [loopChunks, chunksOf, if_neg hwhole, loopChunks, List.length_drop, hpasses]

/-- `k` whole chunks, and the loop over what is left. -/
theorem loopChunks_split (h1 : 1 ≤ chunk) (k : Nat) (input : List Byte) (hle : k * chunk ≤ input.length) :
    ∃ cs, loopChunks chunk input = cs ++ loopChunks chunk (input.drop (k * chunk)) ∧
      cs.flatten = input.take (k * chunk) ∧ cs.map List.length = List.replicate k chunk := by
  induction k generalizing input with
  | zero => exact ⟨[], by simp⟩
  | succ k ih =>
    have hmul := Nat.add_one_mul k chunk
    obtain ⟨cs, hsplit, hflat, hlen⟩ := ih (input.drop chunk) (by rw [List.length_drop]; omega)
    rw [List.drop_drop, ← Nat.add_comm (k * chunk), ← hmul] at hsplit
    refine ⟨input.take chunk :: cs, ?_, ?_, ?_⟩
    · rw [loopChunks_of_le h1 (by omega), hsplit, List.cons_append]
    · rw [List.flatten_cons, hflat, hmul, Nat.add_comm, List.take_add]
    · rw [List.map_cons, hlen, List.length_take, Nat.min_eq_left (by omega), List.replicate_succ]

/-! Passes one after another. -/

theorem passTurns_length (n : Nat) : (passTurns n).length = 3 * n + 4 := by
  simp [passTurns]
  omega

/-- Successive passes combine their chunks with successive keystream bytes (41_cipher.md R152). -/
theorem passes_combine (cs : List (List Byte)) (h : CanServe s) (hword : ∀ c ∈ cs, c.length < 2 ^ 24)
    (hle : cs.flatten.length ≤ s.avail) (hs : s.script = cs.flatMap chunkPassOverlapped ++ ops)
    (ht : s.turns = (cs.flatMap fun c => passTurns c.length) ++ ts) :
    Reaches s (cs.flatMap fun c => passTurns c.length).length ops ts fun t =>
      CanServe t ∧ Combined s t cs.flatten := by
  induction cs generalizing s with
  | nil =>
    obtain ⟨hinv, hi, -⟩ := id h
    exact .refl hs ht ⟨h, .of_same hinv hi rfl rfl rfl rfl rfl rfl rfl⟩
  | cons c cs ih =>
    obtain ⟨hc, hcs⟩ := List.forall_mem_cons.1 hword
    rw [List.flatten_cons, List.length_append] at hle
    rw [List.flatMap_cons, List.append_assoc] at hs ht
    rw [List.flatMap_cons, List.length_append, passTurns_length, List.flatten_cons]
    refine (pass_combines c h hc (by omega) hs ht).bind fun t hts htt ⟨hdone, hfirst⟩ => ?_
    have hleft := hfirst.advanced.left
    exact (ih hdone.canServe hcs (by omega) hts htt).mono fun u ⟨hserve, hall⟩ => ⟨hserve, hfirst.trans hall⟩

/-- A run to its last move. -/
theorem runAll_of_reaches (h : Reaches { s with script := ops, turns := ts } n [] [] P) (hn : ts.length = n) :
    ∃ t, runAll s ops ts = .next t ∧ t.script = [] ∧ P t := by
  subst hn
  obtain ⟨t, hrun, hscript, -, hP⟩ := h
  exact ⟨t, hrun, hscript, hP⟩

/-- The host's program, its record and the turns do not matter to what an engine can serve. -/
theorem canServe_agent (h : CanServe s) (ops : List HostOp) (lg : List HostEvent) (ts : List Turn) :
    CanServe { s with script := ops, log := lg, turns := ts } := by
  obtain ⟨hinv, hi, hb, hks, hdi, hdo⟩ := h
  exact ⟨hinv.hostSide _ _ _ _ _ _ _ id, hi, hb, hks, hdi, hdo⟩

/-- What a run combines, it combines from the state before the host got its program. -/
theorem combined_of_agent (h : CanServe s) {lg : List HostEvent} (hlog : outputPopped lg = outputPopped s.log)
    (hc : Combined { s with script := ops, log := lg, turns := ts } t input) : Combined s t input := by
  obtain ⟨hinv, hi, -⟩ := h
  have hsame : Combined s { s with script := ops, log := lg, turns := ts } [] :=
    .of_same hinv hi rfl rfl rfl rfl rfl hlog rfl
  exact hsame.trans hc

/-- The run of a sequence of passes (41_cipher.md R152). -/
theorem runAll_passes (h : CanServe s) (cs : List (List Byte)) (hword : ∀ c ∈ cs, c.length < 2 ^ 24)
    (hle : cs.flatten.length ≤ s.avail) :
    ∃ t, runAll s (cs.flatMap chunkPassOverlapped) (cs.flatMap fun c => passTurns c.length) = .next t ∧
      CanServe t ∧ Combined s t cs.flatten := by
  have hserved := canServe_agent h (cs.flatMap chunkPassOverlapped) s.log (cs.flatMap fun c => passTurns c.length)
  obtain ⟨t, hrun, -, hserve, hall⟩ := runAll_of_reaches
    (passes_combine cs hserved hword hle (List.append_nil _).symm (List.append_nil _).symm) rfl
  exact ⟨t, hrun, hserve, combined_of_agent h rfl hall⟩

/-- The chunk loop over an input that the engine can serve (41_cipher.md R153). -/
theorem loop_combines (h : CanServe s) (h1 : 1 ≤ chunk) (hword : chunk < 2 ^ 24) (input : List Byte)
    (hle : input.length ≤ s.avail) (hs : s.script = loopOver chunk input ++ ops)
    (ht : s.turns = loopTurns chunk input.length ++ ts) :
    Reaches s (loopTurns chunk input.length).length ops ts fun t => CanServe t ∧ Combined s t input := by
  have hflat := loopChunks_flatten h1 input
  rw [loopOver_eq_flatMap] at hs
  rw [loopTurns_eq_flatMap] at ht ⊢
  have hrun := passes_combine (loopChunks chunk input) h
    (fun c hc => (length_le_of_mem_chunksOf _ _ hc).trans_lt hword) (by rwa [hflat]) hs ht
  rwa [hflat] at hrun

/-! The capacity check. -/

/-- The host's read of a register while the engine is not busy (20_memory.md R62). -/
theorem hostStep_readAt {off : Nat} (hs : s.script = readAt off :: ops) (hb : s.busy = false) (hoff : off < 4096)
    (h4 : off % 4 = 0) :
    hostStep s = .next { s with
      script := ops, log := .readValue (Config.engineBase + off) (s.quietReg (regAt off)) :: s.log } := by
  have hdone : s.opDone = { s with script := ops } := by rw [State.opDone, hs, List.tail_cons]
  have hread := s.opDone.memRead_at off hoff h4
  rw [State.readReg_quiet s.opDone _ hb, hdone] at hread
  unfold hostStep
  rw [hs, readAt, hdone]
  dsimp only
  rw [hread]
  rfl

theorem step_readAt {off : Nat} (hs : s.script = readAt off :: ops) (ht : s.turns = .host :: ts) (hb : s.busy = false)
    (hoff : off < 4096) (h4 : off % 4 = 0) :
    step s = .next { s with
      script := ops, log := .readValue (Config.engineBase + off) (s.quietReg (regAt off)) :: s.log, turns := ts } := by
  rw [step_host_turn s ts ht]
  exact hostStep_readAt (s := { s with turns := ts }) hs hb hoff h4

/-- The bound of the capacity check is LAST_BYTE (70_reset_and_hazards.md R223). -/
theorem inputAccepted_lastByte (s : State) (len : Nat) (lg : List HostEvent) :
    inputAccepted (.readValue (Config.engineBase + 0x024) (s.quietReg .lastByteHi) ::
      .readValue (Config.engineBase + 0x020) (s.quietReg .lastByteLo) :: lg) len =
    decide (len ≤ (2 ^ s.depth.val - 1) * 32) := by
  obtain ⟨hhi, -⟩ := s.quietReg_lastByteHi
  simp only [inputAccepted, lastByteRead, and_self, if_true, hhi, s.quietReg_lastByteLo, Nat.div_add_mod']

/-- The capacity check admits an input of at most LAST_BYTE bytes (70_reset_and_hazards.md R223). -/
theorem capacityCheck_admits {len : Nat} (hb : s.busy = false) (hlen : len ≤ (2 ^ s.depth.val - 1) * 32)
    (hs : s.script = capacityCheck len ++ ops) (ht : s.turns = .host :: .host :: .host :: ts) :
    Reaches s 3 ops ts fun t =>
      ∃ lg, t = { s with script := ops, log := lg, turns := ts } ∧ outputPopped lg = outputPopped s.log := by
  set u : State := { s with
    script := .checkCapacity len :: ops
    log := .readValue (Config.engineBase + 0x024) (s.quietReg .lastByteHi) ::
      .readValue (Config.engineBase + 0x020) (s.quietReg .lastByteLo) :: s.log
    turns := .host :: ts }
  have hcheck : step u = .next { u with script := ops, turns := ts } := by
    have hbound : inputAccepted u.log len = true := (inputAccepted_lastByte s len s.log).trans (decide_eq_true hlen)
    rw [step_host_turn u ts rfl, hostStep_checkCapacity (s := { u with turns := ts }) rfl, if_pos hbound]
    rfl
  refine .step (step_readAt hs ht hb (by decide) (by decide))
    (.step (t := u) (step_readAt rfl rfl hb (by decide) (by decide)) (.step hcheck (.refl rfl rfl ⟨_, rfl, ?_⟩)))
  rw [outputPopped_readValue, outputPopped_readValue]

/-- At the first byte of leaf 0 all leaves are left (40_keystream.md R104). -/
theorem avail_at_start (h : ReadyToServe s) (hleaf : s.path &&& s.mask = 0#32) (hoff : s.offset.val = 0) :
    s.avail = (2 ^ s.depth.val - 1) * 32 + 32 := by
  obtain ⟨-, hst, -⟩ := h
  have hmask : s.mask.toNat = 2 ^ s.depth.val - 1 := maskOf_toNat _ (by omega)
  rw [State.avail_of_ne_exhausted (by simp [hst]), hleaf, hoff, hmask, BitVec.toNat_zero]
  rfl

/-! An XOR that cannot be satisfied. -/

/-- An XOR of more than the engine can deliver ends in FAULT with its dispatch (41_cipher.md R150; 60_exceptions.md
R181, R182). -/
theorem xor_refused (hi : HasInstance s) (hb : s.busy = false) (hrem : s.rem = 0#24) (hdout : s.dout = [])
    (hword : n < 2 ^ 24) (hover : s.avail < n) (hs : s.script = command (.xor n) :: ops)
    (ht : s.turns = .host :: .engine :: ts) :
    Reaches s 2 ops ts fun t => Failed t s.din (outputPopped s.log) := by
  set w := State.issue { s with script := ops, turns := ts } (encode (.xor n))
  have hwi : HasInstance w := hi
  have hl : w.Latched { word := encode (.xor n), argPath := s.argPath, seedIn := s.seedIn } (.xor n) :=
    ⟨rfl, rfl, decodeOfEncodeIsTheInstruction _ (wellFormed_xor hword)⟩
  have hwover : w.avail < n := hover
  refine .step (step_command hs ht hb) (.step (t := w.raise .capacityError) ?_
    (.refl rfl rfl ⟨rfl, rfl, rfl, rfl, hdout, rfl⟩))
  rw [step_engine_turn _ ts rfl]
  refine (engineStep_latched hl).trans ?_
  rw [exec_xor hwi hrem]
  obtain ⟨hz, -⟩ | ⟨-, -, hraise⟩ | ⟨-, hle, -⟩ := w.startPull_cases n
  · omega
  · rw [hraise]
  · omega

/-- The host does not notice the failure while it can push (10_state.md R37). -/
theorem Failed.push (h : Failed s [] out) (hs : s.script = .pushOrStop x :: ops) (ht : s.turns = .host :: ts) :
    Reaches s 1 ops ts fun t => Failed t [x] out := by
  have hroom : s.din.length < Config.fifoDepth := by
    rw [h.din]
    exact Nat.succ_pos _
  exact .step (step_pushOrStop hs ht hroom)
    (.refl rfl rfl ⟨h.st, h.err, h.idle, congrArg (· ++ [x]) h.din, h.doutEmpty, h.popped⟩)

/-- Where no byte comes the host finds the failure and drops its program (41_cipher.md R155; log 20, 27). -/
theorem Failed.stop (h : Failed s q out) (hs : s.script = .popDoutOrStop :: ops) (ht : s.turns = .host :: ts) :
    Reaches s 1 [] ts fun t => Failed t q out := by
  set w : State := { s with turns := ts }
  have hstop : step s = .next (w.statusSeen.stopScript .checkFailed) := by
    rw [step_host_turn s ts ht, hostStep_popDoutOrStop (s := w) hs, w.popDoutElse_nil _ h.doutEmpty,
      w.stopOnFailure_eq, if_pos ⟨h.idle, h.st⟩]
  rw [w.statusSeen_eq] at hstop
  refine .step hstop (.refl rfl rfl ⟨h.st, h.err, h.idle, h.din, h.doutEmpty, ?_⟩)
  rw [← h.popped]
  simp [State.stopScript, outputPopped, w]

/-- An overlapped pass over more than the engine can deliver ends the run at its first pop (41_cipher.md R155). -/
theorem pass_fails (h : CanServe s) {r : List Byte} (hword : r.length < 2 ^ 24) (hover : s.avail < r.length)
    (hs : s.script = chunkPassOverlapped r ++ ops) (ht : s.turns = .host :: .engine :: .host :: .host :: ts) :
    Reaches s 4 [] ts fun t => ∃ q, Failed t q (outputPopped s.log) := by
  obtain ⟨hinv, hi, hb, -, hdi, hdo⟩ := h
  obtain ⟨x, r, rfl⟩ := List.exists_cons_of_length_pos (Nat.zero_lt_of_lt hover)
  refine (xor_refused hi hb (hinv.idle hb) hdo hword hover hs ht).bind (k := 2) fun t hts htt hfail => ?_
  rw [hdi] at hfail
  refine (hfail.push hts htt).bind (k := 1) fun u hus hut hpushed => ?_
  exact (hpushed.stop hus hut).mono fun v hstopped => ⟨[x], hstopped⟩

/-- The host's pushes of a whole chunk that fits in DIN (41_cipher.md R153). -/
theorem runSteps_pushes (r : List Byte) (hs : s.script = r.map .pushOrStop ++ ops)
    (ht : s.turns = List.replicate r.length .host ++ ts) (hroom : s.din.length + r.length ≤ Config.fifoDepth) :
    runSteps r.length s = .next { s with din := s.din ++ r, script := ops, turns := ts } := by
  induction r generalizing s with
  | nil =>
    cases s
    cases hs
    cases ht
    rw [List.append_nil]
    rfl
  | cons x r ih =>
    rw [List.length_cons] at hroom
    rw [List.length_cons, runSteps, step_pushOrStop hs ht (by omega)]
    refine (ih rfl rfl ?_).trans ?_
    · simp only [List.length_append, List.length_singleton]
      omega
    · simp only [List.append_assoc, List.singleton_append]

/-- A pass that pushes its chunk first, of more than the engine can deliver, ends the run at its first pop with the
chunk in DIN (41_cipher.md R155). -/
theorem pass_fails_pushed (h : CanServe s) {r : List Byte} (hword : r.length < 2 ^ 24) (hover : s.avail < r.length)
    (hfit : r.length ≤ Config.fifoDepth) (hs : s.script = chunkPass r ++ ops)
    (ht : s.turns = List.replicate r.length .host ++ (.host :: .engine :: .host :: ts)) :
    Reaches s (r.length + 3) [] ts fun t => Failed t r (outputPopped s.log) := by
  obtain ⟨hinv, hi, hb, -, hdi, hdo⟩ := h
  obtain ⟨m, hm⟩ := Nat.exists_eq_add_of_lt (Nat.zero_lt_of_lt hover)
  have hs' : s.script = r.map .pushOrStop ++
      (command (.xor r.length) :: .popDoutOrStop :: (List.replicate m .popDoutOrStop ++ (.wait :: .check :: ops))) := by
    simpa [chunkPass, hm, List.replicate_succ] using hs
  have hpushed := runSteps_pushes r hs' ht (by rw [hdi]; simpa using hfit)
  rw [hdi, List.nil_append] at hpushed
  set w : State := { s with
    din := r
    script := command (.xor r.length) :: .popDoutOrStop :: (List.replicate m .popDoutOrStop ++ (.wait :: .check :: ops))
    turns := .host :: .engine :: .host :: ts }
  have hstart : Reaches s r.length w.script w.turns (· = w) := ⟨w, hpushed, rfl, rfl, rfl⟩
  refine hstart.bind (k := 3) fun t _ _ htw => ?_
  subst htw
  refine (xor_refused (s := w) hi hb (hinv.idle hb) hdo hword hover rfl rfl).bind (k := 1) fun u hus hut hfail => ?_
  exact hfail.stop hus hut

/-- The chunk loop over more than the engine can deliver: whole chunks while they fit, then the failure (41_cipher.md
R155). -/
theorem loop_fails (h : CanServe s) (h1 : 1 ≤ chunk) (hword : chunk < 2 ^ 24) (hover : s.avail < input.length)
    (hs : s.script = loopOver chunk input ++ ops)
    (ht : s.turns =
      (List.replicate (s.avail / chunk) (passTurns chunk)).flatten ++ (.host :: .engine :: .host :: .host :: ts)) :
    Reaches s ((List.replicate (s.avail / chunk) (passTurns chunk)).flatten.length + 4) [] ts fun t => ∃ q,
      Failed t q (outputPopped s.log ++ xorKeystream s (input.take (s.avail / chunk * chunk))) := by
  generalize hk : s.avail / chunk = k at ht ⊢
  have hfit : k * chunk ≤ s.avail := hk ▸ Nat.div_mul_le_self _ _
  have hnext : s.avail < k * chunk + chunk := hk ▸ Nat.lt_div_mul_add h1
  obtain ⟨cs, hsplit, hflat, hlens⟩ := loopChunks_split h1 k input (by omega)
  have htaken : cs.flatten.length = k * chunk := by
    rw [hflat, List.length_take]
    omega
  have hturns : (List.replicate k (passTurns chunk)).flatten = cs.flatMap fun c => passTurns c.length := by
    rw [← List.flatMap_map, hlens, List.flatMap_replicate]
  have hchunks : ∀ c ∈ cs, c.length < 2 ^ 24 := fun c hc => by
    have hmem : c.length ∈ cs.map List.length := List.mem_map_of_mem hc
    rw [hlens] at hmem
    rwa [List.eq_of_mem_replicate hmem]
  rw [loopOver_eq_flatMap, hsplit, List.flatMap_append, List.append_assoc] at hs
  rw [hturns] at ht ⊢
  refine (passes_combine cs h hchunks (by omega) hs ht).bind fun t hts htt ⟨hserve, hall⟩ => ?_
  have hleft := hall.advanced.left
  rw [loopChunks, chunksOf, List.flatMap_cons, List.append_assoc] at hts
  have hfail := pass_fails hserve (by rw [List.length_take]; omega) (by rw [List.length_take, List.length_drop]; omega)
    hts htt
  rwa [hall.popped, hflat] at hfail

end

/-- Settles O43: the passes over either cut move the cursor on by the same number of bytes. -/
theorem splitXorsEqualOneXor : Obligations.SplitXorsEqualOneXor := by
  intro s cs ds h hsame hcs hds hle
  obtain ⟨t, hrun, ⟨htinv, -⟩, hall⟩ := runAll_passes h cs hcs hle
  obtain ⟨u, hrun', ⟨huinv, -⟩, hall'⟩ := runAll_passes h ds hds (hsame ▸ hle)
  rw [← hsame] at hall'
  exact ⟨t, u, hrun, hrun', hall.popped, hall'.popped.trans hall.popped.symm,
    hall.advanced.samePosition hall'.advanced htinv huinv⟩

/-- Settles O44: the capacity check admits the input, and the loop over it leaves a byte of the last leaf. -/
theorem cipherLoopProcessesTheWholeInput : Obligations.CipherLoopProcessesTheWholeInput := by
  intro s chunk input h hleaf hoff h1 hword hlen
  have havail := avail_at_start h hleaf hoff
  obtain ⟨hinv, hst, hb, hks, hdi, hdo⟩ := h
  have hserve : CanServe s := ⟨hinv, .inl hst, hb, hks, hdi, hdo⟩
  have hrun : Reaches { s with
      script := cipherRun chunkPassOverlapped chunk input
      turns := List.replicate 3 .host ++ loopTurns chunk input.length }
      (3 + (loopTurns chunk input.length).length) [] [] (Combined s · input) := by
    refine Reaches.bind (capacityCheck_admits hb hlen rfl rfl) fun w hws hwt ⟨lg, hw, hlog⟩ => ?_
    subst hw
    have hfits : input.length ≤ s.avail := by omega
    exact (loop_combines (canServe_agent hserve _ lg _) h1 hword input hfits (List.append_nil _).symm
      (List.append_nil _).symm).mono fun t ⟨_, hall⟩ => combined_of_agent hserve hlog hall
  obtain ⟨t, hend, hscript, hall⟩ := runAll_of_reaches hrun (by rw [List.length_append, List.length_replicate])
  obtain ⟨hready, -⟩ := hall.advanced.moved
  obtain ⟨htst, -⟩ := hready (by omega)
  exact ⟨t, hend, hscript, hall.popped, htst, hall.err⟩

/-- Settles O45: the loop fails after its whole chunks, the pass that pushes first at once. -/
theorem failedRunKeepsWholeChunks : Obligations.FailedRunKeepsWholeChunks := by
  intro s rest h
  refine ⟨fun chunk input h1 hword hover => ?_, fun r hword hover hfit => ?_⟩
  · have hfail := loop_fails (ts := []) (canServe_agent h (loopOver chunk input ++ rest) s.log
      ((List.replicate (s.avail / chunk) (passTurns chunk)).flatten ++ [.host, .engine, .host, .host])) h1 hword hover
      rfl rfl
    obtain ⟨t, hrun, hscript, q, hst, herr, hb, -, -, hout⟩ := runAll_of_reaches hfail (List.length_append)
    have hfit : s.avail / chunk * chunk ≤ s.avail := Nat.div_mul_le_self _ _
    exact ⟨t, hrun, hscript, hst, herr, hb, hout.trans (congrArg _ (xorKeystream_take s (hfit.trans hover.le)))⟩
  · have hfail := pass_fails_pushed (ts := []) (canServe_agent h (chunkPass r ++ rest) s.log
      (List.replicate r.length .host ++ [.host, .engine, .host])) hword hover hfit rfl rfl
    obtain ⟨t, hrun, hscript, hst, herr, hb, hdi, -, hout⟩ := runAll_of_reaches hfail (by simp)
    exact ⟨t, hrun, hscript, hst, herr, hb, hdi, hout⟩

end Sys2Proof.Machine
end

section
/-! SUPPORT. CREATEP and the round trip of the cipher (30_encoding.md R87; 40_keystream.md R108; 41_cipher.md R151). -/

namespace Sys2Proof.Machine

open Sys2Proof.Expected

/-- The keystream is the one that CREATE of depth `d` at path `p` with seed `x` leaves (40_keystream.md R108). -/
structure Created (t : State) (d : Nat) (p : Word) (x : B32) : Prop where
  seed : t.seed = x
  depth : t.depth.val = d
  path : t.path = p
  offset : t.offset = 0
  st : t.st = .ready
  err : t.err = .none

section
variable {s t u : State} {d chunk : Nat} {p : Word} {x : B32} {input : List Byte} {ops : List HostOp} {ts : List Turn}

/-- The host's write of ARG_PATH (10_state.md R30). -/
theorem step_setPath (hs : s.script = setPath p ++ ops) (ht : s.turns = .host :: ts) :
    step s = .next { s with argPath := p, script := ops, turns := ts } := by
  have hops : s.script.tail = ops := by rw [hs]; rfl
  rw [step_host_turn s ts ht,
    hostStep_writeAt { s with turns := ts } 0x008 p ops hs (by decide) (by decide), ← hops]
  rfl

/-- The dispatch of a legal CREATE leaves its keystream, ready to serve (40_keystream.md R108). -/
theorem created_of_construct (s : State) (p : Word) (x : B32) (h1 : 1 ≤ d) (h32 : d ≤ 32) (ho : s.ovr = false) :
    CanServe (s.construct d p x).finish ∧ Created (s.construct d p x).finish d p x := by
  have hst : (s.construct d p x).finish.st = .ready := by simp [ho]
  have herr : (s.construct d p x).finish.err = .none := by simp [ho]
  refine ⟨⟨(s.sound_construct p x h1 h32).inv_finish, .inl hst, ?_⟩, ?_⟩
  · simp
  · exact ⟨by simp, by rw [State.finish_depth, s.construct_depth_val p x h32], by simp, by simp, hst, herr⟩

/-- The CMD write and the dispatch of a legal CREATE (40_keystream.md R108; 42_control.md R171, R172). -/
theorem create_creates (h1 : 1 ≤ d) (h32 : d ≤ 32) (hb : s.busy = false) (hseed : s.seedIn = wordsOfSeed x)
    (hs : s.script = command (.create d) :: ops) (ht : s.turns = .host :: .engine :: ts) :
    Reaches s 2 ops ts fun t => CanServe t ∧ Created t d s.argPath x ∧ t.log = s.log := by
  set w : State := State.issue { s with script := ops, turns := ts } (encode (.create d))
  have hwf : (Instr.create d).WellFormed := by
    simp [Instr.WellFormed, Instr.wellFormed]
    omega
  have hl : w.Latched { word := encode (.create d), argPath := s.argPath, seedIn := s.seedIn } (.create d) :=
    ⟨rfl, rfl, decodeOfEncodeIsTheInstruction _ hwf⟩
  have hlatchedSeed : seedOfWords s.seedIn = x := by rw [hseed, seedPackingIsLittleEndian.2 x]
  obtain ⟨hserve, hcreated⟩ := created_of_construct w s.argPath x h1 h32 rfl
  refine .step (step_command hs ht hb) (.step (t := (w.construct d s.argPath x).finish) ?_
    (.refl (State.finish_script _) (State.finish_turns _) ⟨hserve, hcreated, State.finish_log _⟩))
  rw [step_engine_turn _ ts rfl]
  refine (engineStep_latched hl).trans ((exec_create hl.pend h1 h32).trans ?_)
  rw [Pending.seed, hlatchedSeed]

/-- WAIT leaves a fresh keystream as it is (30_encoding.md R87). -/
theorem Created.wait (h : Created s d p x) (hserve : CanServe s) (hs : s.script = .wait :: ops)
    (ht : s.turns = .host :: ts) :
    Reaches s 1 ops ts fun t => CanServe t ∧ Created t d p x ∧ outputPopped t.log = outputPopped s.log := by
  obtain ⟨hinv, hi, hb, hks, hdi, hdo⟩ := hserve
  obtain ⟨v, dr, hwait⟩ := step_wait hs ht hb
  exact .step hwait (.refl rfl rfl ⟨⟨hinv.hostSide _ _ _ _ _ _ _ id, hi, hb, hks, hdi, hdo⟩,
    ⟨h.seed, h.depth, h.path, h.offset, h.st, h.err⟩, outputPopped_readValue _ _ _⟩)

/-- CREATEP on an engine that is not busy, the engine's step before the WAIT (30_encoding.md R87;
70_reset_and_hazards.md R222). -/
theorem createP_creates (h1 : 1 ≤ d) (h32 : d ≤ 32) (hb : s.busy = false) (hs : s.script = createP d p x ++ ops)
    (ht : s.turns = createTurns ++ ts) :
    Reaches s 12 ops ts fun t => CanServe t ∧ Created t d p x ∧ outputPopped t.log = outputPopped s.log := by
  have hs' : s.script = setSeed x ++ (setPath p ++ (command (.create d) :: .wait :: ops)) := by
    simpa [createP] using hs
  have ht' : s.turns = List.replicate 8 .host ++ (.host :: .host :: .engine :: .host :: ts) := by
    simpa [createTurns] using ht
  set v : State := { s with
    seedIn := wordsOfSeed x
    script := setPath p ++ (command (.create d) :: .wait :: ops)
    turns := .host :: .host :: .engine :: .host :: ts }
  have hseeded : Reaches s 8 v.script v.turns (· = v) := ⟨v, runSteps_setSeed x hs' ht', rfl, rfl, rfl⟩
  refine hseeded.bind (k := 4) fun _ _ _ htv => ?_
  subst htv
  set w : State := { v with
    argPath := p, script := command (.create d) :: .wait :: ops, turns := .host :: .engine :: .host :: ts }
  have hcreate := create_creates (s := w) h1 h32 hb rfl rfl rfl
  refine .step (t := w) (step_setPath rfl rfl) (hcreate.bind (k := 1) fun u hus hut ⟨hserve, hcreated, hlog⟩ => ?_)
  refine (hcreated.wait hserve hus hut).mono fun t ⟨htserve, htcreated, htlog⟩ => ⟨htserve, htcreated, htlog.trans ?_⟩
  rw [hlog]

/-- What can be delivered after CREATE (40_keystream.md R104; 70_reset_and_hazards.md R223). -/
theorem Created.avail_eq (h : Created t d p x) :
    t.avail = ((maskOf d).toNat - (p &&& maskOf d).toNat + 1) * 32 := by
  have hmask : t.mask = maskOf d := congrArg maskOf h.depth
  rw [State.avail_of_ne_exhausted (by simp [h.st]), hmask, h.path, h.offset, Nat.add_one_mul]
  rfl

/-- Two CREATEs of the same operands leave the same keystream (40_keystream.md R107). -/
theorem Created.xorKeystream_eq (h : Created t d p x) (h' : Created u d p x) (input : List Byte) :
    xorKeystream t input = xorKeystream u input := by
  unfold xorKeystream keystreamFrom
  rw [h.seed, h.depth, h.path, h.offset, h'.seed, h'.depth, h'.path, h'.offset]

/-- A byte sequence XORed twice with the same keystream is itself (41_cipher.md R151). -/
theorem xorKeystream_xorKeystream (s : State) (input : List Byte) :
    xorKeystream s (xorKeystream s input) = input := by
  have hlen := xorKeystream_length s input
  refine List.ext_getElem (by rw [xorKeystream_length, hlen]) fun j hj hj' => ?_
  simp [xorKeystream, keystreamFrom_length]

/-- CREATEP and the chunk loop over what can be delivered then: the output is the input XORed with the new
keystream (41_cipher.md R153). -/
theorem createP_loop_combines (s : State) (p : Word) (x : B32) (h1 : 1 ≤ d) (h32 : d ≤ 32) (hchunk : 1 ≤ chunk)
    (hword : chunk < 2 ^ 24) (hb : s.busy = false)
    (hfit : input.length ≤ ((maskOf d).toNat - (p &&& maskOf d).toNat + 1) * 32) :
    ∃ t, runAll s (createP d p x ++ loopOver chunk input) (createTurns ++ loopTurns chunk input.length) = .next t ∧
      ∃ u, Created u d p x ∧ outputPopped t.log = outputPopped s.log ++ xorKeystream u input := by
  set w : State := { s with
    script := createP d p x ++ loopOver chunk input, turns := createTurns ++ loopTurns chunk input.length }
  have hrun : Reaches w (12 + (loopTurns chunk input.length).length) [] [] fun t =>
      ∃ u, Created u d p x ∧ outputPopped t.log = outputPopped s.log ++ xorKeystream u input := by
    refine (createP_creates (s := w) h1 h32 hb rfl rfl).bind fun u hus hut ⟨hserve, hcreated, hlog⟩ => ?_
    refine (loop_combines hserve hchunk hword input (by rwa [hcreated.avail_eq]) (hus.trans (List.append_nil _).symm)
      (hut.trans (List.append_nil _).symm)).mono fun t ⟨_, hall⟩ => ⟨u, hcreated, ?_⟩
    rw [hall.popped, hlog]
  obtain ⟨t, hend, -, hout⟩ := runAll_of_reaches hrun List.length_append
  exact ⟨t, hend, hout⟩

end

/-- Settles O41: both runs XOR their input with the same keystream. -/
theorem xorIsItsOwnInverse : Obligations.XorIsItsOwnInverse := by
  intro s s' d p x P chunk chunk' h1 h32 hchunk hword hchunk' hword' hfit hb hb' hlog hlog'
  obtain ⟨t, hrun, u, hu, hout⟩ := createP_loop_combines s p x h1 h32 hchunk hword hb hfit
  rw [hlog] at hout
  have hcipher : outputPopped t.log = xorKeystream u P := hout
  have hlen : (outputPopped t.log).length = P.length := by rw [hcipher, xorKeystream_length]
  obtain ⟨t', hrun', u', hu', hout'⟩ :=
    createP_loop_combines (input := outputPopped t.log) s' p x h1 h32 hchunk' hword' hb' (by rwa [hlen])
  rw [hlen] at hrun'
  rw [hlog'] at hout'
  refine ⟨t, t', hrun, hlen, hrun', ?_⟩
  calc outputPopped t'.log
      = xorKeystream u' (outputPopped t.log) := hout'
    _ = xorKeystream u (xorKeystream u P) := by rw [hcipher, hu'.xorKeystream_eq hu]
    _ = P := xorKeystream_xorKeystream u P

end Sys2Proof.Machine
end

section
/-! SUPPORT. The order of the checks at dispatch (42_control.md R172; 60_exceptions.md R185) and what a write to CMD
does (42_control.md R170, R171; 60_exceptions.md R188). -/

namespace Sys2Proof.Machine

open Sys2Proof.Expected

section
variable {s : State} {p : Pending} {i : Instr} {v : Word}

/-! The engine's move. -/

/-- The engine's move is its step with the turn taken off the list (log 6). -/
theorem step_of_engineMoves (he : s.engineMoves) : step s = engineStep s.afterTurn := by
  obtain hnil | ⟨ts, hts⟩ := he
  · have hafter : s.afterTurn = s := by rw [State.afterTurn, hnil, List.tail_nil, ← hnil]
    rw [step_no_turn s hnil, hafter]
  · rw [step_engine_turn s ts hts, State.afterTurn, hts, List.tail_cons]

/-- On its move a busy engine runs its latched command (42_control.md R172). -/
theorem step_latched (he : s.engineMoves) (hl : s.Latched p i) : step s = exec i s.afterTurn :=
  (step_of_engineMoves he).trans (engineStep_latched ⟨hl.busy, hl.pend, hl.word⟩)

/-- On its move a busy engine dispatches a latched word that decodes to ILLEGAL (42_control.md R172). -/
theorem step_illegal (he : s.engineMoves) (hb : s.busy = true) (hp : s.pend = some p) {e : Illegal}
    (hw : decode p.word = .error e) : step s = .next s.afterTurn.dispatchIllegal := by
  rw [step_of_engineMoves he, engineStep, State.afterTurn_busy, if_pos hb, State.afterTurn_pend, hp]
  dsimp only
  rw [hw]

/-- The host's hook leaves the next move to the engine (log 5, 6). -/
theorem State.withFetchWord_engineMoves (s : State) (nbits w : Nat) : (s.withFetchWord nbits w).engineMoves := by
  cases hts : s.turns with
  | nil => exact .inl (by simp [State.withFetchWord, hts])
  | cons t ts => exact .inr ⟨t :: ts, by simp [State.withFetchWord, hts]⟩

/-- A table word of 32 bits is the command word itself (30_encoding.md R80). -/
theorem tableWord_word (w : Nat) : tableWord 32 w = BitVec.ofNat 32 w :=
  BitVec.eq_of_toNat_eq (by simp [tableWord])

/-- With its turn taken, the engine sees the issue of the word with nothing left to move (42_control.md R171). -/
theorem State.withFetchWord_afterTurn (s : State) (w : Nat) :
    (s.withFetchWord 32 w).afterTurn = { s.issue (BitVec.ofNat 32 w) with rem := 0#24, cnt := 0#24 } := by
  have hturns : (s.withFetchWord 32 w).turns.tail = s.turns := by
    cases hts : s.turns <;> simp [State.withFetchWord, hts]
  rw [State.afterTurn, hturns, State.withFetchWord, tableWord_word]
  rfl

theorem decode_of_decodeTableWord {nbits w : Nat} (h : decodeTableWord nbits w = some i) :
    decode (tableWord nbits w) = .ok i := by
  unfold decodeTableWord at h
  cases hw : decode (tableWord nbits w) with
  | ok j =>
    rw [hw] at h
    exact congrArg Except.ok (Option.some.inj h)
  | error e =>
    rw [hw] at h
    cases h

/-! The checks at dispatch. -/

/-- The commands admitted in every state are CREATE and RESET; every other one needs an instance (60_exceptions.md
R185). -/
theorem needsInstance_of_ne (hcreate : ∀ d, i ≠ .create d) (hreset : i ≠ .reset) : NeedsInstance i := by
  cases i with
  | create d => exact absurd rfl (hcreate d)
  | goto => exact .inl rfl
  | compute f => exact .inr (.inl ⟨f, rfl⟩)
  | read n => exact .inr (.inr (.inl ⟨n, rfl⟩))
  | readExact n => exact .inr (.inr (.inr (.inl ⟨n, rfl⟩)))
  | xor n => exact .inr (.inr (.inr (.inr ⟨n, rfl⟩)))
  | reset => exact absurd rfl hreset

/-- The dispatch of a keystream command asks STATE before it runs its body (42_control.md R172; 60_exceptions.md
R185). -/
theorem exec_needsInstance (hi : NeedsInstance i) (hp : s.pend = some p) (hrem : s.rem = 0#24) :
    ∃ body, exec i s = .next (s.ifConfigured body) := by
  obtain rfl | ⟨f, rfl⟩ | ⟨n, rfl⟩ | ⟨n, rfl⟩ | ⟨n, rfl⟩ := hi
  · exact ⟨fun t => (t.traverse p.argPath).finish, by simp only [exec, execGoto, hp]⟩
  · exact ⟨fun t => (t.compute f).finish, rfl⟩
  · exact ⟨State.startRead n, if_pos hrem⟩
  · exact ⟨State.startPull n, if_pos hrem⟩
  · exact ⟨State.startPull n, if_pos hrem⟩

/-- Bytes are left to move in READY only (40_keystream.md R106). -/
theorem Inv.rem_eq_zero (h : Inv s) (hst : s.st ≠ .ready) : s.rem = 0#24 :=
  Decidable.byContradiction fun hrem => hst (h.running hrem).st

/-- In FAULT a keystream command is ignored (60_exceptions.md R185). -/
theorem exec_needsInstance_fault (h : Inv s) (hp : s.pend = some p) (hi : NeedsInstance i) (hst : s.st = .fault) :
    exec i s = .next s.finishIgnored := by
  obtain ⟨body, hexec⟩ := exec_needsInstance hi hp (h.rem_eq_zero (by simp [hst]))
  rw [hexec, State.ifConfigured, hst]

/-- With no instance a keystream command raises NOT_CONFIGURED (60_exceptions.md R185). -/
theorem exec_needsInstance_unconfigured (h : Inv s) (hp : s.pend = some p) (hi : NeedsInstance i)
    (hst : s.st = .unconfigured) : exec i s = .next (s.raise .notConfigured) := by
  obtain ⟨body, hexec⟩ := exec_needsInstance hi hp (h.rem_eq_zero (by simp [hst]))
  rw [hexec, State.ifConfigured, hst]

/-- In FAULT every latched word but CREATE and RESET is ignored, legal or not (42_control.md R172). -/
theorem step_fault (h : Inv s) (he : s.engineMoves) (hb : s.busy = true) (hp : s.pend = some p) (hst : s.st = .fault)
    (hcreate : ∀ d, decode p.word ≠ .ok (.create d)) (hreset : decode p.word ≠ .ok .reset) :
    step s = .next s.afterTurn.finishIgnored := by
  cases hw : decode p.word with
  | ok i =>
    have hi : NeedsInstance i :=
      needsInstance_of_ne (fun d hd => hcreate d (hd ▸ hw)) fun hr => hreset (hr ▸ hw)
    exact (step_latched he ⟨hb, hp, hw⟩).trans (exec_needsInstance_fault h.afterTurn hp hi hst)
  | error e => exact (step_illegal he hb hp hw).trans (congrArg Host.Outcome.next (if_pos hst))

/-! The write to CMD. -/

/-- The host's write to CMD (10_state.md R28). -/
theorem State.memWrite_cmd (s : State) (v : Word) :
    s.memWrite (Config.engineBase + 0x000) 4 v = .next (s.writeCmd v) :=
  s.memWrite_at 0x000 v (by decide) (by decide)

theorem State.writeCmd_idle (hb : s.busy = false) : s.writeCmd v = s.issue v :=
  if_neg (by simp [hb])

theorem State.writeCmd_overrun (hb : s.busy = true) (hv : v ≠ 0x00000007#32) :
    s.writeCmd v = { s with ovr := true } :=
  (if_pos hb).trans (if_neg hv)

theorem State.writeCmd_reset (hb : s.busy = true) : s.writeCmd 0x00000007#32 = s.resetEngine :=
  (if_pos hb).trans (if_pos rfl)

end

/-- Settles O8: the engine's step runs the latched command, and the hook latches its word. -/
theorem stepRunsTheDecodedInstruction : Obligations.StepRunsTheDecodedInstruction := by
  refine ⟨fun s p i he hb hp hw => ⟨wellFormed_of_decode p.word i hw, step_latched he ⟨hb, hp, hw⟩⟩, ?_⟩
  intro s w i hw
  have hl : (s.withFetchWord 32 w).Latched
      { word := tableWord 32 w, argPath := s.argPath, seedIn := s.seedIn } i :=
    ⟨rfl, rfl, decode_of_decodeTableWord hw⟩
  rw [step_latched (s.withFetchWord_engineMoves 32 w) hl, s.withFetchWord_afterTurn]

/-- Settles O9: one clause per check, in the order of R172; that nothing is left to move where there is no instance
makes the keystream commands' step a dispatch. -/
theorem dispatchOrdersItsChecks : Obligations.DispatchOrdersItsChecks := by
  intro s p h he hb hp
  refine ⟨fun hst hcreate hreset => step_fault h he hb hp hst hcreate hreset, fun hst hill => ?_,
    fun i hw hst hi => ?_, fun i hw => step_latched he ⟨hb, hp, hw⟩⟩
  · cases hw : decode p.word with
    | ok i => exact absurd hw (hill i)
    | error e => exact (step_illegal he hb hp hw).trans (congrArg Host.Outcome.next (if_neg hst))
  · exact (step_latched he ⟨hb, hp, hw⟩).trans (exec_needsInstance_unconfigured h.afterTurn hp hi hst)

/-- Settles O46: the two clauses are the write's branches on busy. -/
theorem cmdWriteIssuesOrOverruns : Obligations.CmdWriteIssuesOrOverruns := by
  intro s v
  rw [s.memWrite_cmd]
  exact ⟨fun hb => congrArg Host.Outcome.next (State.writeCmd_idle hb),
    fun hb hv => congrArg Host.Outcome.next (State.writeCmd_overrun hb hv)⟩

/-- Settles O47: the reset of the engine is made at the write. -/
theorem resetWrittenWhileBusyTakesEffect : Obligations.ResetWrittenWhileBusyTakesEffect := by
  intro s hb
  rw [s.memWrite_cmd, State.writeCmd_reset hb, s.resetEngine_eq_afterReset]

end Sys2Proof.Machine
end

section
/-! SUPPORT. The ends of a command (60_exceptions.md R182), where the keystream commands are refused (R181, R185), what
a byte step can do, and which agents always have a move (R196; 70_reset_and_hazards.md R228). -/

namespace Sys2Proof.Machine

open Sys2Proof.Expected

/-- Settles O10: the two shared ends of a command, field by field. -/
theorem raiseAndFinishLeaveWhatTheRulesSay : Obligations.RaiseAndFinishLeaveWhatTheRulesSay :=
  ⟨fun _ _ => rfl, State.finish_eq_finished⟩

section
variable {s t : State} {p : Pending} {i : Instr}

/-- An idle engine takes no step (60_exceptions.md R196). -/
theorem engineStep_idle (hb : s.busy = false) : engineStep s = .next s := by
  rw [engineStep, hb]
  rfl

/-- Settles O11: the engine's move is its step, which an idle engine does not take. -/
theorem idleEngineChangesNothing : Obligations.IdleEngineChangesNothing :=
  fun s he hb => (step_of_engineMoves he).trans (engineStep_idle (s := s.afterTurn) hb)

/-! Where the keystream commands are refused. -/

/-- Settles O12: nothing is left to move outside READY, so the step of a keystream command is its dispatch. -/
theorem keystreamCommandsNeedAnInstance : Obligations.KeystreamCommandsNeedAnInstance :=
  fun _ _ _ h hp hi => ⟨exec_needsInstance_unconfigured h hp hi, exec_needsInstance_fault h hp hi⟩

/-- A pull of more than `avail()` bytes is refused (40_keystream.md R112, 41_cipher.md R150). -/
theorem State.startPull_refused {n : Nat} (h : s.avail < n) : s.startPull n = s.raise .capacityError := by
  obtain ⟨hz, -⟩ | ⟨-, -, hb⟩ | ⟨-, hle, -⟩ := s.startPull_cases n
  · omega
  · exact hb
  · omega

/-- In EXHAUSTED a READ of a byte or more is refused (40_keystream.md R111). -/
theorem State.startRead_refused {n : Nat} (hst : s.st = .exhausted) (hn : 1 ≤ n) :
    s.startRead n = s.raise .capacityError := by
  obtain ⟨hz, -⟩ | ⟨-, -, hb⟩ | ⟨-, hne, -⟩ := s.startRead_cases n
  · omega
  · exact hb
  · exact absurd hst hne

/-- Settles O33: with nothing left to move the step is the dispatch, which asks for the bytes before any moves. -/
theorem unsatisfiablePullsRaiseCapacityError : Obligations.UnsatisfiablePullsRaiseCapacityError := by
  intro s n i _ hi hrem hn hcase
  obtain ⟨rfl, hst⟩ | ⟨rfl | rfl, hover⟩ := hcase
  · exact (exec_read hi hrem n).trans (congrArg Host.Outcome.next (State.startRead_refused hst hn))
  · exact (exec_readExact hi hrem n).trans (congrArg Host.Outcome.next (State.startPull_refused hover))
  · exact (exec_xor hi hrem n).trans (congrArg Host.Outcome.next (State.startPull_refused hover))

/-! The byte steps. -/

/-- What a command with bytes left to move can do: it holds on a channel, or it moves a byte (40_keystream.md R106,
41_cipher.md R150). -/
inductive ByteMove (s : State) : State → Prop
  /-- a channel has no byte or no room -/
  | hold : ByteMove s s
  /-- a byte is delivered -/
  | byte (ks di dou : List Byte) (r : Word) : ByteMove s (s.byteStep ks di dou r)

theorem ByteMove.ksStep (h : s.ksStep = .next t) : ByteMove s t := by
  by_cases hroom : s.ksOut.length < Config.fifoDepth
  · cases hk : s.leafByte with
    | none => simp [State.ksStep, hroom, hk] at h
    | some k =>
      rw [State.ksStep_room hk hroom] at h
      cases h
      exact .byte _ _ _ _
  · rw [State.ksStep, if_neg hroom] at h
    cases h
    exact .hold

theorem ByteMove.xorStep {n : Nat} (h : s.xorStep n = .next t) : ByteMove s t := by
  cases hd : s.din with
  | nil =>
    rw [s.xorStep_empty n hd] at h
    cases h
    exact .hold
  | cons x rest =>
    by_cases hroom : s.dout.length < Config.fifoDepth
    · cases hk : s.leafByte with
      | none => simp [State.xorStep, hd, hroom, hk] at h
      | some k =>
        rw [State.xorStep_room n hk hd hroom] at h
        cases h
        exact .byte _ _ _ _
    · simp only [State.xorStep, hd, if_neg hroom] at h
      cases h
      exact .hold

/-- A data command with bytes left to move makes a byte step (40_keystream.md R106, 41_cipher.md R150). -/
theorem exec_byteMove (hm : movesBytes i = true) (hrem : s.rem ≠ 0#24) (h : exec i s = .next t) : ByteMove s t := by
  cases i with
  | read n => exact .ksStep (exec_keystream_running hrem (.inl rfl) ▸ h)
  | readExact n => exact .ksStep (exec_keystream_running hrem (.inr rfl) ▸ h)
  | xor n => exact .xorStep (exec_xor_running n hrem ▸ h)
  | _ => cases hm

/-- With a byte under the cursor a byte step does not stop (40_keystream.md R106, 41_cipher.md R150). -/
theorem exec_running_next (hm : movesBytes i = true) (hrem : s.rem ≠ 0#24) {k : Byte} (hk : s.leafByte = some k) :
    ∃ t, exec i s = .next t := by
  cases i with
  | read n => exact ⟨_, (exec_keystream_running hrem (.inl rfl)).trans (s.ksStep_eq k hk)⟩
  | readExact n => exact ⟨_, (exec_keystream_running hrem (.inr rfl)).trans (s.ksStep_eq k hk)⟩
  | xor n =>
    rw [exec_xor_running n hrem]
    cases hd : s.din with
    | nil => exact ⟨_, s.xorStep_empty n hd⟩
    | cons x rest => exact ⟨_, s.xorStep_eq n k x rest hk hd⟩
  | _ => cases hm

/-- Under the invariants the command with bytes left to move is a latched data command (10_state.md R41). -/
theorem Inv.latched_of_running (h : Inv s) (hrem : s.rem ≠ 0#24) :
    ∃ p i, s.Latched p i ∧ movesBytes i = true := by
  obtain ⟨p, i, hp, hw, hm⟩ := (h.running hrem).latched
  exact ⟨p, i, ⟨by rw [h.latch, hp, Option.isSome_some], hp, hw⟩, hm⟩

/-! Which moves answer a next state. -/

/-- Under the invariants a latched command makes its step (60_exceptions.md R196). -/
theorem Inv.exec_next (h : Inv s) (hl : s.Latched p i) : ∃ t, exec i s = .next t := by
  by_cases hrem : s.rem = 0#24
  · by_cases hi : NeedsInstance i
    · obtain ⟨body, hbody⟩ := exec_needsInstance hi hl.pend hrem
      exact ⟨_, hbody⟩
    · cases i with
      | create d =>
        by_cases hd : d = 0 ∨ 32 < d
        · exact ⟨_, exec_create_bad hl.pend hd⟩
        · exact ⟨_, exec_create hl.pend (by omega) (by omega)⟩
      | reset => exact ⟨_, rfl⟩
      | _ => exact (hi (needsInstance_of_ne nofun nofun)).elim
  · obtain ⟨q, j, hp, hw, hm⟩ := (h.running hrem).latched
    obtain rfl : p = q := Option.some.inj (hl.pend.symm.trans hp)
    obtain rfl : i = j := Except.ok.inj (hl.word.symm.trans hw)
    obtain ⟨k, hk, -⟩ := h.leafByte_eq_cursorByte hrem
    exact exec_running_next hm hrem hk

/-- Under the invariants the engine always makes its step (60_exceptions.md R196, 70_reset_and_hazards.md R228). -/
theorem Inv.engineStep_next (h : Inv s) : ∃ t, engineStep s = .next t := by
  cases hb : s.busy with
  | false => exact ⟨s, engineStep_idle hb⟩
  | true =>
    obtain ⟨p, hp⟩ := Option.isSome_iff_exists.1 (h.latch.symm.trans hb)
    cases hw : decode p.word with
    | ok i =>
      rw [engineStep_latched ⟨hb, hp, hw⟩]
      exact h.exec_next ⟨hb, hp, hw⟩
    | error e => exact ⟨s.dispatchIllegal, by simp only [engineStep, hb, hp, hw, if_true]⟩

/-- What a host operation can answer (20_memory.md R60, R65). -/
inductive HostAnswer : Result → Prop
  /-- the operation is done, or it waits -/
  | next (t : State) : HostAnswer (.next t)
  /-- the address is outside the window -/
  | outside : HostAnswer (.fault .outsideWindow)
  /-- the access has another width or alignment -/
  | undefined : HostAnswer (.refused .undefinedAccess)

theorem hostAnswer_memWrite (s : State) (addr width : Nat) (v : Word) : HostAnswer (s.memWrite addr width v) := by
  unfold State.memWrite
  rcases windowAccess addr width with off | _ | _
  · exact .next _
  · exact .outside
  · exact .undefined

theorem hostAnswer_read {addr width : Nat} {rest : List HostOp} (hs : s.script = .read addr width :: rest) :
    HostAnswer (hostStep s) := by
  unfold hostStep
  rw [hs]
  dsimp only
  unfold State.memRead
  rcases windowAccess addr width with off | _ | _
  · exact .next _
  · exact .outside
  · exact .undefined

theorem HostAnswer.pushElse {b : Byte} {full : Result} (hfull : HostAnswer full) : HostAnswer (s.pushElse b full) := by
  unfold State.pushElse
  split
  · exact .next _
  · exact hfull

theorem HostAnswer.popDoutElse {empty : Result} (hempty : HostAnswer empty) : HostAnswer (s.popDoutElse empty) := by
  unfold State.popDoutElse
  split
  · exact hempty
  · exact .next _

theorem hostAnswer_stopOnFailure (s : State) : HostAnswer s.stopOnFailure := by
  rw [s.stopOnFailure_eq]
  exact .next _

/-- The host stops only on an access without a meaning (20_memory.md R60, R65). -/
theorem hostStep_answer (s : State) : HostAnswer (hostStep s) := by
  cases hs : s.script with
  | nil => exact hostStep_nil hs ▸ .next _
  | cons op rest =>
    cases op with
    | write addr width v => exact hostStep_write hs ▸ hostAnswer_memWrite _ _ _ _
    | read addr width => exact hostAnswer_read hs
    | push b => exact hostStep_push hs ▸ .pushElse (.next _)
    | popKs =>
      cases hq : s.ksOut with
      | nil => exact hostStep_popKs_empty hs hq ▸ .next _
      | cons b q => exact hostStep_popKs hs hq ▸ .next _
    | popDout => exact hostStep_popDout hs ▸ .popDoutElse (.next _)
    | pushOrStop b => exact hostStep_pushOrStop hs ▸ .pushElse (hostAnswer_stopOnFailure s)
    | popDoutOrStop => exact hostStep_popDoutOrStop hs ▸ .popDoutElse (hostAnswer_stopOnFailure s)
    | wait => exact hostStep_wait hs ▸ .next _
    | check => exact hostStep_check hs ▸ .next _
    | checkCapacity len => exact hostStep_checkCapacity hs ▸ .next _
    | checkCapacityFrom p0 len => exact hostStep_checkCapacityFrom hs ▸ .next _

/-- Under the invariants every move but the host's answers a next state (60_exceptions.md R196). -/
theorem Inv.step_next (h : Inv s) (hts : ∀ ts, s.turns ≠ .host :: ts) : ∃ t, step s = .next t := by
  by_cases he : s.engineMoves
  · rw [step_of_engineMoves he]
    exact h.afterTurn.engineStep_next
  · cases hturns : s.turns with
    | nil => exact absurd (.inl hturns) he
    | cons turn ts =>
      cases turn with
      | engine => exact absurd (.inr ⟨ts, hturns⟩) he
      | host => exact absurd hturns (hts ts)
      | hardwareReset => exact ⟨_, by rw [step, hturns]; rfl⟩

/-- Under the invariants a step answers what a host operation can answer. -/
theorem Inv.step_answer (h : Inv s) : HostAnswer (step s) := by
  by_cases hhost : ∃ ts, s.turns = .host :: ts
  · obtain ⟨ts, hts⟩ := hhost
    exact step_host_turn s ts hts ▸ hostStep_answer _
  · obtain ⟨t, ht⟩ := h.step_next (not_exists.1 hhost)
    exact ht ▸ .next t

/-- Settles O19: the engine's move and a reset always answer, and the host stops only on an access without a meaning. -/
theorem onlyUndefinedHostAccessesStop : Obligations.OnlyUndefinedHostAccessesStop := by
  refine fun s h => ⟨h.step_next, fun f hf => ?_, fun r hr => ?_⟩
  · have hanswer := h.step_answer
    rw [hf] at hanswer
    cases hanswer
    rfl
  · have hanswer := h.step_answer
    rw [hr] at hanswer
    cases hanswer
    rfl

end

end Sys2Proof.Machine
end

section
/-! SUPPORT. Which moves enter FAULT or write ERRCODE in it (60_exceptions.md R183), and which leave it (R186). -/

namespace Sys2Proof.Machine

open Sys2Proof.Expected

section
variable {s t : State} {p : Pending} {i : Instr}

/-- A step is the engine's move, a reset by its cause, or a host move, which writes neither STATE nor ERRCODE. -/
theorem step_engine_or_reset_or_status_kept (h : step s = .next t) :
    (s.engineMoves ∧ EngineMove s.afterTurn t) ∨ ResetStep s t ∨ (t.st = s.st ∧ t.err = s.err) := by
  obtain hengine | ⟨hts, hm⟩ | hreset := step_cases h
  · exact .inl hengine
  · refine .inr ?_
    cases hm with
    | reset rest hb hs => exact .inl (.inr (.inr ⟨hts, hb, rest, hs, State.resetEngine_eq_afterReset _⟩))
    | _ => exact .inr ⟨rfl, rfl⟩
  · exact .inr (.inl (.inl hreset))

/-- No reset ends in FAULT (10_state.md R22). -/
theorem resetStep_st (h : ResetStep s t) : t.st = .unconfigured := by
  obtain ⟨-, rfl⟩ | ⟨-, -, -, rfl⟩ | ⟨-, -, rest, -, rfl⟩ := h <;> rfl

/-- A finish that enters FAULT, or writes ERRCODE in it, reports a recorded overrun (42_control.md R173). -/
theorem State.overrun_of_finish (hst : s.finish.st = .fault) (hnew : s.st ≠ .fault ∨ s.finish.err ≠ s.err) :
    s.finish.err = .overrun ∧ s.ovr = true ∧ s.finish.busy = false := by
  cases ho : s.ovr with
  | true => simp [ho]
  | false =>
    simp only [State.finish_st, State.finish_err, ho, Bool.false_eq_true, if_false] at hst hnew
    simp [hst] at hnew

/-- The advance of the cursor never enters FAULT (40_keystream.md R105). -/
theorem State.st_of_adv1_fault (h : s.adv1.st = .fault) : s.st = .fault := by
  obtain ⟨-, ha⟩ | ⟨-, -, ha⟩ | ⟨-, -, ha⟩ := s.adv1_cases <;> rw [ha] at h
  · exact h
  · cases h
  · cases h

/-- A byte step that enters FAULT, or writes ERRCODE in it, reports a recorded overrun (60_exceptions.md R183). -/
theorem State.overrun_of_byteStep {ks di dou : List Byte} {r : Word} (hst : (s.byteStep ks di dou r).st = .fault)
    (hnew : s.st ≠ .fault ∨ (s.byteStep ks di dou r).err ≠ s.err) :
    (s.byteStep ks di dou r).err = .overrun ∧ s.ovr = true ∧ (s.byteStep ks di dou r).busy = false := by
  obtain ⟨-, hstep⟩ | ⟨-, hstep⟩ := s.byteStep_cases ks di dou r
  · rw [hstep] at hst hnew
    have hkept : (s.adv1.withChannels ks di dou).countByte.err = s.err := s.adv1_err
    exact absurd hkept (hnew.resolve_left (absurd (State.st_of_adv1_fault hst)))
  · rw [← State.finish_eq_finished] at hstep
    rw [hstep] at hst hnew ⊢
    obtain ⟨herr, hovr, hbusy⟩ := State.overrun_of_finish hst
      (hnew.imp (fun hs hf => hs (State.st_of_adv1_fault hf)) fun he hsame => he (hsame.trans s.adv1_err))
    exact ⟨herr, s.adv1_ovr.symm.trans hovr, hbusy⟩

theorem not_fault_of_hasInstance (hi : HasInstance s) : s.st ≠ .fault := by
  obtain hst | hst := hi <;> simp [hst]

/-- An engine move that enters FAULT, or writes ERRCODE in it, reports a recorded overrun at the end of a command, or is
a raise (60_exceptions.md R183). -/
theorem EngineMove.reported_or_raised (hm : EngineMove s t) (hst : t.st = .fault)
    (hnew : s.st ≠ .fault ∨ t.err ≠ s.err) :
    (t.err = .overrun ∧ s.ovr = true ∧ t.busy = false) ∨ (t.err ≠ .none ∧ t = s.raise t.err) := by
  cases hm with
  | same => simp [hst] at hnew
  | ignored hs => simp [hs] at hnew
  | raised e he => exact .inr ⟨he, rfl⟩
  | reset p _ => simp at hst
  | created p d _ _ _ =>
    obtain ⟨herr, hovr, hbusy⟩ := State.overrun_of_finish hst (.inl (by rw [State.construct_st]; decide))
    exact .inl ⟨herr, (s.construct_ovr d p.argPath p.seed).symm.trans hovr, hbusy⟩
  | traversed p _ => exact .inl (State.overrun_of_finish hst (.inl (by simp)))
  | computed f hi => exact .inl (State.overrun_of_finish hst (.inl (not_fault_of_hasInstance hi)))
  | empty hi => exact .inl (State.overrun_of_finish hst (.inl (not_fault_of_hasInstance hi)))
  | started p i n _ _ hready _ => simp [hready] at hst
  | byte ks di dou r _ _ => exact .inl (State.overrun_of_byteStep hst hnew)

/-- Under the invariants no byte step raises: only the last one enters FAULT, by an overrun (60_exceptions.md R183). -/
theorem ByteMove.overrun_at_last (hm : ByteMove s t) (h : Inv s) (hrem : s.rem ≠ 0#24) (hst : t.st = .fault) :
    t.err = .overrun ∧ s.rem = 1#24 := by
  have hready : s.st ≠ .fault := not_fault_of_hasInstance (.inl (h.running hrem).st)
  cases hm with
  | hold => exact absurd hst hready
  | byte ks di dou r =>
    refine ⟨(State.overrun_of_byteStep hst (.inl hready)).1, ?_⟩
    obtain ⟨-, hstep⟩ | ⟨hlast, -⟩ := s.byteStep_cases ks di dou r
    · rw [hstep] at hst
      exact absurd (State.st_of_adv1_fault hst) hready
    · exact hlast

/-- Under the invariants the engine's move with bytes left to move is a byte step (42_control.md R172). -/
theorem Inv.engineStep_byteMove (h : Inv s) (hrem : s.rem ≠ 0#24) (hstep : engineStep s = .next t) :
    ByteMove s t := by
  obtain ⟨p, i, hl, hm⟩ := h.latched_of_running hrem
  exact exec_byteMove hm hrem ((engineStep_latched hl).symm.trans hstep)

/-- Settles O13: of the three agents only the engine enters FAULT or writes ERRCODE in it, by a report or a raise; with
bytes left to move its move is a byte step. -/
theorem errorsArePrecise : Obligations.ErrorsArePrecise := by
  intro s t hstep hst hnew
  obtain ⟨he, hm⟩ | hreset | ⟨hsst, herr⟩ := step_engine_or_reset_or_status_kept hstep
  · refine ⟨hm.reported_or_raised hst hnew, fun h hrem => ?_⟩
    rw [step_of_engineMoves he] at hstep
    exact (h.afterTurn.engineStep_byteMove hrem hstep).overrun_at_last h.afterTurn hrem hst
  · simp [resetStep_st hreset] at hst
  · exact absurd herr (hnew.resolve_left (absurd (hsst.symm.trans hst)))

/-! Which moves leave FAULT. -/

/-- Under the invariants an engine move that leaves FAULT is a RESET, or a CREATE that ends READY (60_exceptions.md
R186). -/
theorem EngineMove.left_fault (hm : EngineMove s t) (h : Inv s) (hs : s.st = .fault) (ht : t.st ≠ .fault) :
    (∃ p, s.Latched p .reset ∧ t = s.resetEngine) ∨
    (t.st = .ready ∧ t.err = .none ∧ ∃ p d, s.Latched p (.create d) ∧ 1 ≤ d ∧ d ≤ 32) := by
  have hno : ¬HasInstance s := fun hi => not_fault_of_hasInstance hi hs
  cases hm with
  | same => exact absurd hs ht
  | ignored _ => exact absurd hs ht
  | raised e _ => exact absurd rfl ht
  | reset p hl => exact .inl ⟨p, hl, rfl⟩
  | created p d hl h1 h32 =>
    cases ho : s.ovr with
    | true => simp [ho] at ht
    | false => exact .inr ⟨by simp [ho], by simp [ho], p, d, hl, h1, h32⟩
  | traversed p hi => exact absurd hi hno
  | computed f hi => exact absurd hi hno
  | empty hi => exact absurd hi hno
  | started p i n _ _ hready _ => exact absurd (.inl hready) hno
  | byte ks di dou r hrem _ => exact absurd (.inl (h.running hrem).st) hno

/-- Settles O14: of the engine's moves only RESET and a legal CREATE leave FAULT, and a host move leaves it only as a
reset; a CREATE of another depth is refused before its body. -/
theorem onlyCreateOrResetLeavesFault : Obligations.OnlyCreateOrResetLeavesFault := by
  constructor
  · intro s t h hs hstep ht
    obtain ⟨he, hm⟩ | hreset | ⟨hkept, -⟩ := step_engine_or_reset_or_status_kept hstep
    · obtain ⟨p, hl, rfl⟩ | ⟨hready, hnone, p, d, hl, h1, h32⟩ := hm.left_fault h.afterTurn hs ht
      · exact .inl (resetStep_of_latched he hl)
      · exact .inr ⟨hready, hnone, p, d, createMoves_of_latched he hl h1 h32⟩
    · exact .inl hreset
    · exact absurd (hkept.trans hs) ht
  · intro s p d _ he hb hp hw hd
    have hexec : exec (.create d) s.afterTurn = .next (s.afterTurn.raise .configError) :=
      exec_create_bad (s := s.afterTurn) hp (by omega)
    exact ⟨_, (step_latched he ⟨hb, hp, hw⟩).trans hexec, rfl, rfl⟩

end

end Sys2Proof.Machine
end

section
/-! SUPPORT. Which moves record or report an overrun (60_exceptions.md R188, 70_reset_and_hazards.md R224). -/

namespace Sys2Proof.Machine

open Sys2Proof.Expected

section
variable {s t : State} {p : Pending} {i : Instr}

/-- No overrun is recorded in `t`, and none is reported in it that `s` did not report. -/
structure NoNewOverrun (s t : State) : Prop where
  ovr : t.ovr = false
  err : t.err = .overrun → s.err = .overrun

theorem NoNewOverrun.raise {e : ErrorCode} (he : e ≠ .overrun) : NoNewOverrun s (s.raise e) :=
  ⟨rfl, fun h => absurd h he⟩

/-- With no overrun recorded a command's end reports none (42_control.md R173). -/
theorem NoNewOverrun.finish (h : NoNewOverrun s t) : NoNewOverrun s t.finish :=
  ⟨t.finish_ovr, fun herr => h.err (by simpa [h.ovr] using herr)⟩

theorem NoNewOverrun.ifConfigured (ho : s.ovr = false) {body : State → State} (hbody : NoNewOverrun s (body s)) :
    NoNewOverrun s (s.ifConfigured body) := by
  obtain ⟨-, hb⟩ | ⟨-, hb⟩ | ⟨-, hb⟩ := s.ifConfigured_cases body <;> rw [hb]
  · exact ⟨ho, id⟩
  · exact .raise (by decide)
  · exact hbody

theorem NoNewOverrun.finishEmpty (ho : s.ovr = false) : NoNewOverrun s s.finishEmpty :=
  .finish ⟨ho, id⟩

theorem NoNewOverrun.startPull (ho : s.ovr = false) (n : Nat) : NoNewOverrun s (s.startPull n) := by
  obtain ⟨-, hb⟩ | ⟨-, -, hb⟩ | ⟨-, -, hb⟩ := s.startPull_cases n <;> rw [hb]
  · exact .finishEmpty ho
  · exact .raise (by decide)
  · exact ⟨ho, id⟩

theorem NoNewOverrun.startRead (ho : s.ovr = false) (n : Nat) : NoNewOverrun s (s.startRead n) := by
  obtain ⟨-, hb⟩ | ⟨-, -, hb⟩ | ⟨-, -, hb⟩ := s.startRead_cases n <;> rw [hb]
  · exact .finishEmpty ho
  · exact .raise (by decide)
  · exact ⟨ho, id⟩

theorem ByteMove.noNewOverrun (hm : ByteMove s t) (ho : s.ovr = false) : NoNewOverrun s t := by
  cases hm with
  | hold => exact ⟨ho, id⟩
  | byte ks di dou r =>
    have hmoved : NoNewOverrun s (s.adv1.withChannels ks di dou).countByte :=
      ⟨s.adv1_ovr.trans ho, fun herr => s.adv1_err.symm.trans herr⟩
    obtain ⟨-, hstep⟩ | ⟨-, hstep⟩ := s.byteStep_cases ks di dou r <;> rw [hstep]
    · exact hmoved
    · rw [← State.finish_eq_finished]
      exact .finish ⟨hmoved.ovr, hmoved.err⟩

/-- A data command makes its dispatch where nothing is left to move, else a byte step (log 16). -/
theorem NoNewOverrun.dispatchOrByte (ho : s.ovr = false) {body : State → State} (hbody : NoNewOverrun s (body s))
    {bytes : Result} (hbytes : bytes = .next t → ByteMove s t)
    (h : (if s.rem = 0#24 then .next (s.ifConfigured body) else bytes) = .next t) : NoNewOverrun s t := by
  split at h
  · cases h
    exact .ifConfigured ho hbody
  · exact (hbytes h).noNewOverrun ho

/-- No command raises OVERRUN (60_exceptions.md R181, R188). -/
theorem NoNewOverrun.exec (ho : s.ovr = false) (hl : s.Latched p i) (h : exec i s = .next t) : NoNewOverrun s t := by
  cases i with
  | create d =>
    by_cases hd : d = 0 ∨ 32 < d
    · rw [exec_create_bad hl.pend hd] at h
      cases h
      exact .raise (by decide)
    · rw [exec_create hl.pend (by omega) (by omega)] at h
      cases h
      exact .finish ⟨(s.construct_ovr d p.argPath p.seed).trans ho, fun herr => by simp at herr⟩
  | goto =>
    simp only [Machine.exec, execGoto, hl.pend] at h
    cases h
    exact .ifConfigured ho (.finish ⟨ho, id⟩)
  | compute f =>
    cases h
    exact .ifConfigured ho (.finish ⟨ho, id⟩)
  | read n => exact .dispatchOrByte ho (.startRead ho n) .ksStep h
  | readExact n => exact .dispatchOrByte ho (.startPull ho n) .ksStep h
  | xor n => exact .dispatchOrByte ho (.startPull ho n) .xorStep h
  | reset =>
    cases h
    exact ⟨rfl, nofun⟩

theorem NoNewOverrun.engineStep (ho : s.ovr = false) (h : engineStep s = .next t) : NoNewOverrun s t := by
  cases hb : s.busy with
  | false =>
    rw [engineStep_idle hb] at h
    cases h
    exact ⟨ho, id⟩
  | true =>
    cases hp : s.pend with
    | none => simp [Machine.engineStep, hb, hp] at h
    | some p =>
      cases hw : decode p.word with
      | ok i => exact .exec ho ⟨hb, hp, hw⟩ ((engineStep_latched ⟨hb, hp, hw⟩).symm.trans h)
      | error e =>
        simp only [Machine.engineStep, hb, hp, hw, if_true] at h
        cases h
        unfold State.dispatchIllegal
        split
        · exact ⟨ho, id⟩
        · exact .raise (by decide)

theorem NoNewOverrun.statusSeen (ho : s.ovr = false) (ops : List HostOp) (lg : List HostEvent) :
    NoNewOverrun s { s.statusSeen with script := ops, log := lg } := by
  rw [s.statusSeen_eq]
  exact ⟨ho, id⟩

theorem NoNewOverrun.stopOnFailure (ho : s.ovr = false) (h : s.stopOnFailure = .next t) : NoNewOverrun s t := by
  rw [s.stopOnFailure_eq] at h
  split at h <;> cases h
  · exact .statusSeen ho _ _
  · exact .statusSeen ho s.statusSeen.script s.statusSeen.log

theorem NoNewOverrun.pushElse (ho : s.ovr = false) {b : Byte} {full : Result}
    (hfull : full = .next t → NoNewOverrun s t) (h : s.pushElse b full = .next t) : NoNewOverrun s t := by
  unfold State.pushElse at h
  split at h
  · cases h
    exact ⟨ho, id⟩
  · exact hfull h

theorem NoNewOverrun.popDoutElse (ho : s.ovr = false) {empty : Result}
    (hempty : empty = .next t → NoNewOverrun s t) (h : s.popDoutElse empty = .next t) : NoNewOverrun s t := by
  unfold State.popDoutElse at h
  split at h
  · exact hempty h
  · cases h
    exact ⟨ho, id⟩

/-- The host's write, under its duty to issue one command at a time (70_reset_and_hazards.md R224). -/
theorem NoNewOverrun.write (ho : s.ovr = false) (hk : s.hostKeepsProtocol) {addr width : Nat} {v : Word}
    {rest : List HostOp} (hs : s.script = .write addr width v :: rest) (h : hostStep s = .next t) :
    NoNewOverrun s t := by
  rw [hostStep_write hs] at h
  obtain ⟨off, hoff, rfl⟩ := State.memWrite_next h
  by_cases hcmd : regAt off = .cmd
  · obtain rfl := regAt_eq_cmd hcmd
    change NoNewOverrun s (s.opDone.writeCmd v)
    cases hb : s.busy with
    | false =>
      rw [State.writeCmd_idle (s := s.opDone) hb]
      exact ⟨rfl, id⟩
    | true =>
      rw [hk addr width v rest hs hoff hb, State.writeCmd_reset (s := s.opDone) hb]
      exact ⟨rfl, nofun⟩
  · obtain ⟨a, w, hw⟩ := s.opDone.writeReg_operand v hcmd
    rw [hw]
    exact ⟨ho, id⟩

/-- Of the host's operations only a write to CMD records an overrun (60_exceptions.md R188). -/
theorem NoNewOverrun.hostStep (ho : s.ovr = false) (hk : s.hostKeepsProtocol) (h : hostStep s = .next t) :
    NoNewOverrun s t := by
  have hwaits (hw : (.next s : Result) = .next t) : NoNewOverrun s t := by
    cases hw
    exact ⟨ho, id⟩
  cases hs : s.script with
  | nil => exact hwaits ((hostStep_nil hs).symm.trans h)
  | cons op rest =>
    cases op with
    | write addr width v => exact .write ho hk hs h
    | read addr width =>
      obtain ⟨r, hr, rfl⟩ := hostStep_read hs h
      obtain ⟨off, -, -, hstate⟩ := State.memRead_next hr
      rw [hstate]
      exact ⟨ho, id⟩
    | push b => exact .pushElse ho hwaits ((hostStep_push hs).symm.trans h)
    | popKs =>
      cases hq : s.ksOut with
      | nil => exact hwaits ((hostStep_popKs_empty hs hq).symm.trans h)
      | cons b q =>
        rw [hostStep_popKs hs hq] at h
        cases h
        exact ⟨ho, id⟩
    | popDout => exact .popDoutElse ho hwaits ((hostStep_popDout hs).symm.trans h)
    | pushOrStop b => exact .pushElse ho (.stopOnFailure ho) ((hostStep_pushOrStop hs).symm.trans h)
    | popDoutOrStop => exact .popDoutElse ho (.stopOnFailure ho) ((hostStep_popDoutOrStop hs).symm.trans h)
    | wait =>
      rw [hostStep_wait hs] at h
      split at h <;> cases h
      · exact .statusSeen ho s.statusSeen.script s.statusSeen.log
      · exact .statusSeen ho _ s.statusSeen.log
    | check =>
      rw [hostStep_check hs] at h
      split at h <;> cases h
      · exact .statusSeen ho _ _
      · exact .statusSeen ho _ s.statusSeen.log
    | checkCapacity len =>
      rw [hostStep_checkCapacity hs] at h
      split at h <;> cases h <;> exact ⟨ho, id⟩
    | checkCapacityFrom p0 len =>
      rw [hostStep_checkCapacityFrom hs] at h
      split at h <;> cases h <;> exact ⟨ho, id⟩

/-- Settles O20: no command raises OVERRUN, a command's end reports only a recorded one, and the host's duty leaves no
write that records one. -/
theorem noOverrunUnderTheHostProtocol : Obligations.NoOverrunUnderTheHostProtocol := by
  intro s t ho hk hstep
  suffices hnew : NoNewOverrun s.afterTurn t from ⟨hnew.ovr, hnew.err⟩
  obtain ⟨he, -⟩ | ⟨⟨ts, hts⟩, -⟩ | ⟨-, rfl⟩ := step_cases hstep
  · exact .engineStep ho ((step_of_engineMoves he).symm.trans hstep)
  · have hafter : s.afterTurn = { s with turns := ts } := by rw [State.afterTurn, hts, List.tail_cons]
    rw [step_host_turn s ts hts, ← hafter] at hstep
    exact .hostStep ho hk hstep
  · exact ⟨rfl, nofun⟩

end

end Sys2Proof.Machine
end

section
/-! SUPPORT. What the window shows of the instance (60_exceptions.md R195; 10_state.md R29, R32 to R34, R39). -/

namespace Sys2Proof.Machine

/-- The STATE that a code of STATUS names (10_state.md R23). -/
def stOfCode (c : BitVec 2) : St :=
  if c = 0#2 then .unconfigured else if c = 1#2 then .ready else if c = 2#2 then .exhausted else .fault

theorem stOfCode_stCode (x : St) : stOfCode (stCode x) = x := by cases x <;> rfl

/-- The error that a code of STATUS names (60_exceptions.md R180). -/
def errOfCode (c : BitVec 4) : ErrorCode :=
  if c = 0x0#4 then .none else if c = 0x1#4 then .illegalCommand else if c = 0x2#4 then .configError
  else if c = 0x3#4 then .notConfigured else if c = 0x4#4 then .capacityError else .overrun

theorem errOfCode_errCode (e : ErrorCode) : errOfCode (errCode e) = e := by cases e <;> rfl

/-- A register field below 33 is known from its register (10_state.md R32, R34). -/
theorem fin33_eq_of_ofNat_eq {a b : Fin 33} (h : BitVec.ofNat 32 a.val = BitVec.ofNat 32 b.val) : a = b :=
  Fin.ext ((toNat_ofNat_fin33 a).symm.trans ((congrArg BitVec.toNat h).trans (toNat_ofNat_fin33 b)))

/-- The eight words of a node slot determine its 32 bytes (10_state.md R39). -/
theorem b32_eq_of_wordOfBytes_eq {x y : B32} (h : ∀ q, wordOfBytes x q = wordOfBytes y q) : x = y := by
  refine Vector.ext fun n hn => ?_
  have hx := wordOfBytes_byte x ⟨n / 4, by omega⟩ ⟨n % 4, by omega⟩
  have hy := wordOfBytes_byte y ⟨n / 4, by omega⟩ ⟨n % 4, by omega⟩
  rw [h] at hx
  simpa only [Nat.div_add_mod] using hx.symm.trans hy

/-- Settles O54: each field is recovered from the register that shows it. -/
theorem windowShowsTheInstance : Obligations.WindowShowsTheInstance := by
  intro s t hs ht hread
  have hquiet (r : Reg) : s.quietReg r = t.quietReg r := by
    have hr := hread r
    rwa [s.readReg_quiet r hs, t.readReg_quiet r ht] at hr
  have hst : stCode s.st = stCode t.st := by
    rw [← stateField_status s hs, ← stateField_status t ht, hread]
  have herr : errCode s.err = errCode t.err :=
    (errField_statusWord _ _ _).symm.trans ((congrArg errField (hquiet .status)).trans (errField_statusWord _ _ _))
  exact ⟨fin33_eq_of_ofNat_eq (hquiet .depth), hquiet .curPath, fin33_eq_of_ofNat_eq (hquiet .offset),
    Vector.ext fun i hi => b32_eq_of_wordOfBytes_eq fun q => hquiet (.node ⟨i, hi⟩ q),
    Function.LeftInverse.injective stOfCode_stCode hst, Function.LeftInverse.injective errOfCode_errCode herr⟩

end Sys2Proof.Machine
end

section
/-! SUPPORT. The reset state as the window shows it, and the reads that stay exact while busy (10_state.md R22, R29,
R30; 70_reset_and_hazards.md R220, R225). -/

namespace Sys2Proof.Machine

open Sys2Proof.Expected

section
variable {s : State}

/-! After a reset. -/

/-- The hardware reset input has its effect with its turn (70_reset_and_hazards.md R220). -/
theorem step_hardwareReset_turn {ts : List Turn} (ht : s.turns = .hardwareReset :: ts) :
    step s = .next (afterReset s.afterTurn) := by
  unfold step State.afterTurn
  rw [ht, List.tail_cons]
  exact congrArg Host.Outcome.next (State.resetEngine_eq_afterReset _)

/-- A word of the zero string is 0 (20_memory.md R63). -/
theorem wordOfBytes_zero32 : ∀ q, wordOfBytes zero32 q = 0#32 := by decide

/-- After a reset every register has the value 0 (70_reset_and_hazards.md R220). -/
theorem quietReg_afterReset (s : State) (r : Reg) : (afterReset s).quietReg r = 0#32 := by
  cases r with
  | node slot quarter =>
    have hslot : (afterReset s).nodes[slot.val] = zero32 := Vector.getElem_replicate _
    rw [State.quietReg, hslot]
    exact wordOfBytes_zero32 quarter
  | status => exact (by decide : statusWord 0#2 false 0x0#4 = 0#32)
  | lastByteHi =>
    have hlast : (afterReset s).lastByte = 0 := rfl
    rw [State.quietReg, hlast, Nat.zero_div]
  | _ => rfl

/-! While busy. -/

/-- What stands at the offsets that always read 0 (10_state.md R28, R38, R40). -/
theorem regAt_alwaysZero {off : Nat} (h : off = 0x000 ∨ (0x028 ≤ off ∧ off < 0x400) ∨ 0x800 ≤ off) :
    regAt off = .cmd ∨ (∃ k, regAt off = .seedIn k) ∨ regAt off = .reserved := by
  obtain rfl | hoff := h
  · exact .inl rfl
  · unfold regAt
    simp (disch := omega) only [if_neg]
    split
    · exact .inr (.inl ⟨_, rfl⟩)
    · exact .inr (.inr rfl)

/-- The always-zero reads are exact while busy (70_reset_and_hazards.md R225). -/
theorem State.readReg_alwaysZero (hb : s.busy = true) {r : Reg}
    (hr : r = .cmd ∨ (∃ k, r = .seedIn k) ∨ r = .reserved) : s.readReg r = (0#32, s) := by
  obtain rfl | ⟨k, rfl⟩ | rfl := hr <;> exact if_pos hb

/-- STATUS while busy has its STATE and ERRCODE from the free draw (70_reset_and_hazards.md R225; log 9). -/
theorem State.readReg_status_busy (hb : s.busy = true) :
    s.readReg .status =
      (statusWord (stateField (Config.busyRead s.draws)) true (errField (Config.busyRead s.draws)), s.drawn) :=
  if_pos hb

theorem State.readReg_argPath_busy (hb : s.busy = true) : s.readReg .argPath = (s.argPath, s) :=
  if_pos hb

end

/-- Settles O2: both resets are `resetEngine`, and after it no register has another value than 0. -/
theorem resetCommandAndInputGiveResetState : Obligations.ResetCommandAndInputGiveResetState := by
  refine ⟨fun s => congrArg Host.Outcome.next s.resetEngine_eq_afterReset, fun s ts => step_hardwareReset_turn, ?_⟩
  intro s off hoff h4
  rw [State.memRead_at _ off hoff h4, State.readReg_quiet _ _ rfl, quietReg_afterReset]

/-- Settles O50: a read changes only the record and the draws, and the exact registers do not take the draw. -/
theorem busyReadsExactWhereTheSpecSaysSo : Obligations.BusyReadsExactWhereTheSpecSaysSo := by
  intro s off hb hoff h4
  refine ⟨_, _, s.memRead_at off hoff h4, congrArg (State.record · _) (s.readReg_state _), ?_, ?_, fun hz => ?_⟩
  · rintro rfl
    have hstatus : s.readReg (regAt 0x004) = _ := State.readReg_status_busy hb
    rw [hstatus]
    exact ⟨busyField_statusWord _ _ _, statusWord_reserved _ _ _⟩
  · rintro rfl
    exact congrArg Prod.fst (State.readReg_argPath_busy hb)
  · rw [State.readReg_alwaysZero hb (regAt_alwaysZero hz)]

end Sys2Proof.Machine
end

section
/-! SUPPORT. ARG_PATH and SEED_IN play no part in the steps of the command in flight (70_reset_and_hazards.md R226):
every operation that a command makes, but a reset, leaves them as they are and does the same whatever they hold. -/

namespace Sys2Proof.Machine

/-- The state with other values in ARG_PATH and SEED_IN. -/
def State.withOperands (s : State) (a : Word) (w : Vector Word 8) : State := { s with argPath := a, seedIn := w }

section
variable {s t : State} {i : Instr} (a : Word) (w : Vector Word 8)

/-! The shared operations. -/

theorem State.finish_withOperands (s : State) : (s.withOperands a w).finish = s.finish.withOperands a w := by
  rw [State.finish_eq_finished, State.finish_eq_finished]
  rfl

theorem State.adv1_withOperands (s : State) : (s.withOperands a w).adv1 = s.adv1.withOperands a w := by
  unfold State.adv1
  rw [apply_ite (State.withOperands · a w), apply_ite (State.withOperands · a w)]
  rfl

theorem State.endIfDone_withOperands (s : State) (r : Word) :
    (s.withOperands a w).endIfDone r = (s.endIfDone r).withOperands a w := by
  unfold State.endIfDone
  rw [apply_ite (State.withOperands · a w), ← State.finish_withOperands]
  rfl

theorem State.byteStep_withOperands (s : State) (ks di dou : List Byte) (r : Word) :
    (s.withOperands a w).byteStep ks di dou r = (s.byteStep ks di dou r).withOperands a w := by
  rw [State.byteStep_eq, State.byteStep_eq, s.adv1_withOperands, ← State.endIfDone_withOperands]
  rfl

theorem State.finishEmpty_withOperands (s : State) :
    (s.withOperands a w).finishEmpty = s.finishEmpty.withOperands a w :=
  State.finish_withOperands a w { s with result := 0#32 }

theorem State.startPull_withOperands (s : State) (n : Nat) :
    (s.withOperands a w).startPull n = (s.startPull n).withOperands a w := by
  unfold State.startPull
  rw [apply_ite (State.withOperands · a w), apply_ite (State.withOperands · a w), s.finishEmpty_withOperands]
  rfl

theorem State.startRead_withOperands (s : State) (n : Nat) :
    (s.withOperands a w).startRead n = (s.startRead n).withOperands a w := by
  unfold State.startRead
  rw [apply_ite (State.withOperands · a w), apply_ite (State.withOperands · a w), s.finishEmpty_withOperands]
  rfl

theorem State.ifConfigured_withOperands (s : State) {body : State → State}
    (hbody : body (s.withOperands a w) = (body s).withOperands a w) :
    (s.withOperands a w).ifConfigured body = (s.ifConfigured body).withOperands a w := by
  have hst : (s.withOperands a w).st = s.st := rfl
  unfold State.ifConfigured
  rw [hst]
  cases s.st with
  | fault => rfl
  | unconfigured => rfl
  | ready => exact hbody
  | exhausted => exact hbody

theorem State.dispatchIllegal_withOperands (s : State) :
    (s.withOperands a w).dispatchIllegal = s.dispatchIllegal.withOperands a w := by
  unfold State.dispatchIllegal
  rw [apply_ite (State.withOperands · a w)]
  rfl

/-! The byte steps. -/

theorem State.ksStep_withOperands (h : s.ksStep = .next t) :
    (s.withOperands a w).ksStep = .next (t.withOperands a w) := by
  by_cases hroom : s.ksOut.length < Config.fifoDepth
  · cases hk : s.leafByte with
    | none => simp [State.ksStep, hroom, hk] at h
    | some k =>
      rw [State.ksStep_room hk hroom] at h
      cases h
      rw [← State.byteStep_withOperands]
      exact State.ksStep_room (s := s.withOperands a w) hk hroom
  · rw [State.ksStep, if_neg hroom] at h
    cases h
    exact if_neg hroom

theorem State.xorStep_withOperands {n : Nat} (h : s.xorStep n = .next t) :
    (s.withOperands a w).xorStep n = .next (t.withOperands a w) := by
  cases hd : s.din with
  | nil =>
    rw [s.xorStep_empty n hd] at h
    cases h
    exact (s.withOperands a w).xorStep_empty n hd
  | cons x rest =>
    by_cases hroom : s.dout.length < Config.fifoDepth
    · cases hk : s.leafByte with
      | none => simp [State.xorStep, hd, hroom, hk] at h
      | some k =>
        rw [State.xorStep_room n hk hd hroom] at h
        cases h
        rw [← State.byteStep_withOperands]
        exact State.xorStep_room (s := s.withOperands a w) n hk hd hroom
    · simp only [State.xorStep, hd, if_neg hroom] at h
      cases h
      have hd' : (s.withOperands a w).din = x :: rest := hd
      rw [State.xorStep, hd']
      exact if_neg hroom

/-- A data command makes its dispatch where nothing is left to move, else a byte step (log 16); both ignore the
registers. -/
theorem dispatchOrByte_withOperands (s : State) {body : State → State} {bytes bytes' : Result}
    (hbody : body (s.withOperands a w) = (body s).withOperands a w)
    (hbytes : bytes = .next t → bytes' = .next (t.withOperands a w))
    (h : (if s.rem = 0#24 then .next (s.ifConfigured body) else bytes) = .next t) :
    (if s.rem = 0#24 then .next ((s.withOperands a w).ifConfigured body) else bytes' : Result) =
      .next (t.withOperands a w) := by
  split at h
  · next hrem =>
    cases h
    rw [if_pos hrem, s.ifConfigured_withOperands a w hbody]
  · next hrem => exact (if_neg hrem).trans (hbytes h)

/-! The commands. -/

/-- CREATE and GOTO take path and seed from the latch, and no other command takes either (10_state.md R41). -/
theorem exec_withOperands {p : Pending} (hp : s.pend = some p) (hi : i ≠ .reset) (h : exec i s = .next t) :
    exec i (s.withOperands a w) = .next (t.withOperands a w) := by
  have hp' : (s.withOperands a w).pend = some p := hp
  cases i with
  | create d =>
    by_cases hd : d = 0 ∨ 32 < d
    · rw [exec_create_bad hp hd] at h
      cases h
      exact exec_create_bad hp' hd
    · rw [exec_create hp (by omega) (by omega)] at h
      cases h
      rw [exec_create hp' (by omega) (by omega), ← State.finish_withOperands]
      rfl
  | goto =>
    simp only [exec, execGoto, hp] at h
    simp only [exec, execGoto, hp']
    cases h
    rw [s.ifConfigured_withOperands a w]
    exact State.finish_withOperands a w (s.traverse p.argPath)
  | compute f =>
    cases h
    exact congrArg Host.Outcome.next
      (s.ifConfigured_withOperands a w (State.finish_withOperands a w (s.compute f)))
  | read n => exact dispatchOrByte_withOperands a w s (s.startRead_withOperands a w n) (State.ksStep_withOperands a w) h
  | readExact n =>
    exact dispatchOrByte_withOperands a w s (s.startPull_withOperands a w n) (State.ksStep_withOperands a w) h
  | xor n => exact dispatchOrByte_withOperands a w s (s.startPull_withOperands a w n) (State.xorStep_withOperands a w) h
  | reset => exact absurd rfl hi

/-- The dispatch of a latched illegal word (42_control.md R172). -/
theorem engineStep_illegal {p : Pending} {e : Illegal} (hb : s.busy = true) (hp : s.pend = some p)
    (hw : decode p.word = .error e) : engineStep s = .next s.dispatchIllegal := by
  simp only [engineStep, hb, hp, hw, if_true]

/-- The steps of the latched command are the same for every value of the registers (70_reset_and_hazards.md R226). -/
theorem engineStep_withOperands {p : Pending} (hb : s.busy = true) (hp : s.pend = some p)
    (hreset : decode p.word ≠ .ok .reset) (h : engineStep s = .next t) :
    engineStep (s.withOperands a w) = .next (t.withOperands a w) := by
  cases hw : decode p.word with
  | ok i =>
    rw [engineStep_latched ⟨hb, hp, hw⟩] at h
    rw [engineStep_latched (s := s.withOperands a w) ⟨hb, hp, hw⟩]
    exact exec_withOperands a w hp (fun hi => hreset (hi ▸ hw)) h
  | error e =>
    rw [engineStep_illegal hb hp hw] at h
    cases h
    rw [engineStep_illegal (s := s.withOperands a w) hb hp hw, s.dispatchIllegal_withOperands]

end

/-- Settles O52: the latched command's step ignores the registers, which RESET clears and the next issue latches. -/
theorem runningCommandIgnoresLaterOperandWrites : Obligations.RunningCommandIgnoresLaterOperandWrites := by
  refine ⟨fun s p a w hb hp => ⟨fun t hreset => engineStep_withOperands a w hb hp hreset, fun hw => ?_⟩,
    fun s a w v hb => ?_⟩
  · rw [engineStep_latched ⟨hb, hp, hw⟩]
    exact engineStep_latched (s := s.withOperands a w) ⟨hb, hp, hw⟩
  · refine ⟨State.issue (s.withOperands a w) v, ?_, rfl⟩
    rw [← State.writeCmd_idle (s := s.withOperands a w) hb]
    exact State.memWrite_cmd (s.withOperands a w) v

end Sys2Proof.Machine
end

section
/-! SUPPORT. The boot sequence and the host's capacity checks (70_reset_and_hazards.md R222, R223). -/

namespace Sys2Proof.Machine

open Sys2Proof.Expected

section
variable {s : State} {len : Nat} {ops : List HostOp} {ts : List Turn}

/-- From the start of a leaf its bytes and those of all leaves after it are left (40_keystream.md R104). -/
theorem State.avail_at_leafStart (hst : s.st = .ready) (hoff : s.offset.val = 0) :
    s.avail = (s.mask.toNat - (s.path &&& s.mask).toNat + 1) * 32 := by
  rw [State.avail_of_ne_exhausted (by simp [hst]), hoff, Nat.add_one_mul]

/-- From the start of leaf 0 all leaves are left (40_keystream.md R104). -/
theorem State.avail_at_firstLeaf (hst : s.st = .ready) (hleaf : s.path &&& s.mask = 0#32) (hoff : s.offset.val = 0) :
    s.avail = 2 ^ s.depth.val * 32 := by
  have hmask : s.mask.toNat = 2 ^ s.depth.val - 1 := maskOf_toNat _ (by omega)
  have hpos : 0 < 2 ^ s.depth.val := Nat.two_pow_pos _
  rw [State.avail_at_leafStart hst hoff, hleaf, hmask, BitVec.toNat_zero, Nat.sub_zero, Nat.sub_add_cancel hpos]

/-- A check in the host's program: passed, it is taken off, and failed, it drops the rest (log 20); nothing but the host
agent changes. -/
theorem reaches_verdict {op : HostOp} {c : Prop} [Decidable c] {e : HostEvent} (hs : s.script = op :: ops)
    (ht : s.turns = .host :: ts)
    (hmove : hostStep { s with turns := ts } =
      .next (if c then State.opDone { s with turns := ts } else State.stopScript { s with turns := ts } e)) :
    Reaches s 1 (if c then ops else []) ts fun t => t = { s with script := t.script, log := t.log, turns := ts } := by
  refine .step ((step_host_turn s ts ht).trans hmove) ?_
  split
  · exact .refl (by rw [State.opDone, hs, List.tail_cons]) rfl rfl
  · exact .refl rfl rfl rfl

/-- The check by LAST_BYTE goes on exactly up to its bound (70_reset_and_hazards.md R223). -/
theorem reaches_capacityCheck (hb : s.busy = false) (hs : s.script = capacityCheck len ++ ops)
    (ht : s.turns = .host :: .host :: .host :: ts) :
    Reaches s 3 (if len ≤ (2 ^ s.depth.val - 1) * 32 then ops else []) ts fun t =>
      t = { s with script := t.script, log := t.log, turns := ts } := by
  set u : State := { s with
    script := .checkCapacity len :: ops
    log := .readValue (Config.engineBase + 0x024) (s.quietReg .lastByteHi) ::
      .readValue (Config.engineBase + 0x020) (s.quietReg .lastByteLo) :: s.log
    turns := .host :: ts }
  have hbound : inputAccepted u.log len = decide (len ≤ (2 ^ s.depth.val - 1) * 32) :=
    inputAccepted_lastByte s len s.log
  have hcheck := hostStep_checkCapacity (s := { u with turns := ts }) rfl
  simp only [hbound, decide_eq_true_eq] at hcheck
  exact .step (step_readAt hs ht hb (by decide) (by decide))
    (.step (t := u) (step_readAt rfl rfl hb (by decide) (by decide)) (reaches_verdict rfl rfl hcheck))

/-- The check for an initial path goes on exactly up to its bound (70_reset_and_hazards.md R223). -/
theorem reaches_capacityCheckFrom {p0 : Word} (hb : s.busy = false) (hs : s.script = capacityCheckFrom p0 len ++ ops)
    (ht : s.turns = .host :: .host :: ts) :
    Reaches s 2 (if len ≤ (s.mask.toNat - (p0 &&& s.mask).toNat + 1) * 32 then ops else []) ts fun t =>
      t = { s with script := t.script, log := t.log, turns := ts } := by
  set u : State := { s with
    script := .checkCapacityFrom p0 len :: ops
    log := .readValue (Config.engineBase + 0x01C) s.mask :: s.log
    turns := .host :: ts }
  have hbound : inputAcceptedFrom u.log p0 len =
      decide (len ≤ (s.mask.toNat - (p0 &&& s.mask).toNat + 1) * 32) := by
    simp only [u, inputAcceptedFrom, lastLeafRead, if_true]
  have hcheck := hostStep_checkCapacityFrom (s := { u with turns := ts }) rfl
  simp only [hbound, decide_eq_true_eq] at hcheck
  exact .step (t := u) (step_readAt hs ht hb (by decide) (by decide)) (reaches_verdict rfl rfl hcheck)

end

/-- Settles O57: the run of CREATEP leaves the instance ready to serve, its chain right by the invariants. -/
theorem bootSequenceCreatesAnInstance : Obligations.BootSequenceCreatesAnInstance := by
  intro s d p x rest h1 h32 hb hs ht
  obtain ⟨t, hrun, hscript, -, ⟨hinv, -, hidle, hks, hdi, hdo⟩, hcreated, -⟩ :=
    createP_creates h1 h32 hb hs (ht.trans (List.append_nil _).symm)
  refine ⟨t, hrun, hcreated.st, hcreated.err, hidle, hcreated.seed, hcreated.path, hcreated.depth,
    congrArg Fin.val hcreated.offset, hscript, hks, hdi, hdo, fun i hi => ?_⟩
  have hlevel : t.levelRight i := hinv.chain i (hcreated.depth.symm ▸ hi)
  rwa [State.levelRight, hcreated.seed, hcreated.path, hcreated.depth] at hlevel

/-- Settles O60: the verdicts from the two runs, the bounds from `avail()` at the start of a leaf. -/
theorem capacityCheckAdmitsOnlyWhatFits : Obligations.CapacityCheckAdmitsOnlyWhatFits := by
  intro s len rest _ hst hb
  constructor
  · intro hs ht
    obtain ⟨t, hrun, hverdict, -⟩ := reaches_capacityCheck hb hs ht
    refine ⟨t, hrun, hverdict, fun hleaf hoff => ?_⟩
    have havail := State.avail_at_firstLeaf hst hleaf hoff
    have hpos : 0 < 2 ^ s.depth.val := Nat.two_pow_pos _
    exact ⟨havail, by omega⟩
  · intro p0 hs ht
    obtain ⟨t, hrun, hverdict, -⟩ := reaches_capacityCheckFrom hb hs ht
    refine ⟨t, hrun, hverdict, ?_⟩
    rintro rfl hoff
    exact State.avail_at_leafStart hst hoff

end Sys2Proof.Machine
end
